-- ==== Sys2Proof/Word.lean ====
section
/-! DEFINITION. The word types of the engine: bytes, frames, nibbles (rule R10). -/

namespace Sys2Proof

/-- R10: a byte is 8 bits. -/
abbrev Byte := BitVec 8

/-- R10, R54: a frame, one value of the expander's output register, is 8 bits. -/
abbrev Frame := BitVec 8

/-- R10: a nibble is 4 bits. -/
abbrev Nibble := BitVec 4

/-- R10: a DDRAM address is 7 bits. -/
abbrev DdAddr := BitVec 7

/-- R10: `b2u(x)` is 1 for true and 0 for false, here at 8 bits. -/
def b2u (x : Bool) : Byte := if x then 1#8 else 0#8

end Sys2Proof
end

