-- ==== Sys2Proof/Syntax.lean ====
section
/-! DEFINITION. The instructions: one constructor for each row of spec/opcode_table.json, in its order.
The first twelve are HD44780 words (R57 to R60), the next two the bootstrap nibbles (R63), and the last
thirteen the requests of the engine's port (R64). -/

namespace Sys2Proof

/-- The instruction set. Operands are immediate values (R65). A field `x` holds don't-care bits, kept so
that no bit of a word is dropped. -/
inductive Instr where
  /-- R58, R117. -/
  | clearDisplay
  /-- R58, R119: `x` is DB0. -/
  | returnHome (x : BitVec 1)
  /-- R58, R120: `inc` is I/D, `sh` is S. -/
  | entryModeSet (inc sh : Bool)
  /-- R58, R121. -/
  | displayControl (d c b : Bool)
  /-- R58, R122: `sc` is S/C, `rl` is R/L, `x` is DB1..DB0. -/
  | cursorDisplayShift (sc rl : Bool) (x : BitVec 2)
  /-- R58, R123: `x` is DB1..DB0. -/
  | functionSet (dl n f : Bool) (x : BitVec 2)
  /-- R58, R124. -/
  | setCgramAddr (a : BitVec 6)
  /-- R58, R124. -/
  | setDdramAddr (a : BitVec 7)
  /-- R60, R125. -/
  | writeData (v : BitVec 8)
  /-- R58, R118: the all-zero word, which the HD44780 does not define. -/
  | noInstruction00
  /-- R57, R111: RW = 1 and RS = 0, a read cycle. -/
  | readBusyAddr (x : BitVec 8)
  /-- R57, R111: RW = 1 and RS = 1, a read cycle. -/
  | readData (x : BitVec 8)
  /-- R63: the nibble 0x3 with RS = RW = 0. -/
  | bootNibble3
  /-- R63: the nibble 0x2 with RS = RW = 0. -/
  | bootNibble2
  /-- R87. -/
  | init
  /-- R93. -/
  | clear
  /-- R94. -/
  | home
  /-- R95: both operands are unbounded naturals before the bounds check. -/
  | setcur (line col : Nat)
  /-- R96. -/
  | putc (b : BitVec 8)
  /-- R97. -/
  | display (on : Bool)
  /-- R98. -/
  | cursor (on : Bool)
  /-- R99. -/
  | blink (on : Bool)
  /-- R100: `inc` is the operand `id`. -/
  | entry (inc sh : Bool)
  /-- R101. -/
  | shift (sc rl : Bool)
  /-- R102. -/
  | backlight (on : Bool)
  /-- R103. -/
  | getbl
  /-- R104. -/
  | pread
  deriving DecidableEq, Repr

end Sys2Proof
end

