-- ==== Sys2Proof/Config.lean ====
section
/-! DEFINITION. The configuration record CFG of rule R7, the transport's answers, and the free values
(opaque constants) the spec calls draws. Which configurations are well formed is WellFormed.lean's. -/

namespace Sys2Proof

/-- R7: the two fonts of the function-set instruction. -/
inductive Font where
  | f5x8
  | f5x10
  deriving DecidableEq, Repr

/-- R7, R72: the facade's policy for a text longer than a line. Facade only: no engine rule reads it. -/
inductive WriteLinePolicy where
  | truncate
  | wrap
  deriving DecidableEq, Repr

/-- R7: PINMAP, the expander bit (0 to 7) that drives each of the eight signals. -/
structure PinMap where
  rs : Fin 8
  rw : Fin 8
  e  : Fin 8
  bl : Fin 8
  d4 : Fin 8
  d5 : Fin 8
  d6 : Fin 8
  d7 : Fin 8
  deriving DecidableEq, Repr

/-- R7: the configuration record. It is fixed for the life of an instance; no step changes it. -/
structure Config where
  lines           : Nat
  columns         : Nat
  font            : Font
  i2cAddr         : BitVec 7
  pinmap          : PinMap
  blActiveHigh    : Bool
  backlightInit   : Bool
  lineStart       : List DdAddr
  tPowerOn        : Nat
  tBoot1          : Nat
  tBoot2          : Nat
  tBoot3          : Nat
  tCmd            : Nat
  tClear          : Nat
  tHome           : Nat
  writeLinePolicy : WriteLinePolicy
  /-- R115: OBS_T_PON, the observer's parameter: the controller's busy time at power-on (log entry 19). -/
  obsTPon         : Nat
  deriving DecidableEq, Repr

/-- R39, R40: the transport's answer to one bus transaction: whether it succeeded, and the byte a
successful read returns (a write ignores `data`). -/
structure Answer where
  ok   : Bool
  data : Byte
  deriving DecidableEq, Repr, Inhabited

/-- Free value (log entry 4): the transport's answer to the `n`-th transaction, where the state lists none. -/
opaque Config.freeAnswer : Nat → Answer

/-- Free value (log entry 5): the `n`-th value the spec leaves to a draw inside the two devices, where the
state lists none. -/
opaque Config.freeByte : Nat → Byte

/-- Free value (log entry 26): the controller's execution time still to run after a failed INIT, at the
`n`-th draw, where the state lists none. -/
opaque Config.freeTime : Nat → Nat

/-- Free value (log entry 17): where the facade puts piece `k` of a text that wraps, by COLUMNS, line and
text: the operands of the SETCUR it issues first, or none if it issues none. R72 leaves it open. -/
opaque Config.freeWrap : Nat → Nat → List Byte → Nat → Option (Nat × Nat)

end Sys2Proof
end

