-- ==== Sys2Proof/Machine/Geometry.lean ====
section
/-! DEFINITION. Display geometry: DDRAM ranges, column limits, line starts and cell addresses (R9, R21,
R37, R38), and the default values of the configuration (R7). -/

namespace Sys2Proof.Machine

/-- R9: COLMAX. A line count that is not 1, 2 or 4 has no columns. -/
def colMax (lines : Nat) : Nat :=
  if lines = 1 then 80 else if lines = 2 then 40 else if lines = 4 then 20 else 0

/-- R37: the DDRAM addresses that exist, by the controller's line mode (`true` is two-line). -/
def validDdram (twoLine : Bool) (a : Nat) : Bool :=
  if twoLine then a ≤ 0x27 || (0x40 ≤ a && a ≤ 0x67) else a ≤ 0x4F

/-- R21: FS_N, 1 for more than one line. -/
def fsN (c : Config) : Bool := 1 < c.lines

/-- R21: FS_F, 1 for the 5x10 font. -/
def fsF (c : Config) : Bool := c.font = .f5x10

/-- R7, R38: the default line-start table. -/
def defaultLineStart (lines columns : Nat) : List DdAddr :=
  if lines = 1 then [0#7]
  else if lines = 2 then [0#7, 0x40#7]
  else [0#7, 0x40#7, BitVec.ofNat 7 columns, BitVec.ofNat 7 (0x40 + columns)]

/-- R38: DDADDR(line, col). Defined for `line < LINES` and `col < COLUMNS`; callers check that first. -/
def ddAddr (c : Config) (line col : Nat) : DdAddr :=
  (c.lineStart.getD line 0#7) + BitVec.ofNat 7 col

/-- R7, R54: the default pin map. -/
def defaultPinMap : PinMap :=
  { rs := 0, rw := 1, e := 2, bl := 3, d4 := 4, d5 := 5, d6 := 6, d7 := 7 }

/-- R7: every defaulted parameter at its default. LINES and COLUMNS have none and are arguments;
WRITE_LINE_POLICY is open and is an argument too. -/
def configOf (lines columns : Nat) (policy : WriteLinePolicy) : Config :=
  { lines := lines, columns := columns, font := .f5x8, i2cAddr := 0x27#7, pinmap := defaultPinMap,
    blActiveHigh := true, backlightInit := true, lineStart := defaultLineStart lines columns,
    tPowerOn := 50000, tBoot1 := 4100, tBoot2 := 100, tBoot3 := 100, tCmd := 50, tClear := 2000,
    tHome := 2000, writeLinePolicy := policy, obsTPon := 40000 }

/-- DESIGN CHOICE (log entry 1): configuration D of 95_test_vectors.md, the instance State.reset is built
with: 2 lines of 16 columns and every default. -/
def configD : Config := configOf 2 16 .truncate

end Sys2Proof.Machine
end

