-- ==== Sys2Proof/WellFormed.lean ====
section
/-! DEFINITION. What is well formed: a configuration (WF_CFG, R8, check by check), and which
constructors are requests (R64, R68). No operand value of any instruction is reserved (R68), so the
types of Syntax.lean already say what a well-formed instruction is. -/

namespace Sys2Proof

open Machine

/-- R8 cfg_lines. -/
def Config.cfgLines (c : Config) : Bool := c.lines = 1 || c.lines = 2 || c.lines = 4

/-- R8 cfg_columns. -/
def Config.cfgColumns (c : Config) : Bool := 1 ≤ c.columns && c.columns ≤ colMax c.lines

/-- R8 cfg_font. -/
def Config.cfgFont (c : Config) : Bool := c.font = .f5x8 || c.lines = 1

/-- The eight positions of a pin map, in R7's order. -/
def PinMap.positions (p : PinMap) : List (Fin 8) := [p.rs, p.rw, p.e, p.bl, p.d4, p.d5, p.d6, p.d7]

/-- R8 cfg_pinmap: PINMAP is injective. -/
def Config.cfgPinmap (c : Config) : Bool := decide c.pinmap.positions.Nodup

/-- R8 cfg_line_start: LINES entries, and every cell of every line at an address that exists. -/
def Config.cfgLineStart (c : Config) : Bool :=
  c.lineStart.length = c.lines &&
    c.lineStart.all fun a => (List.range c.columns).all fun k => validDdram (fsN c) (a.toNat + k)

/-- R8 cfg_times: every T_* at or above its minimum of R7. -/
def Config.cfgTimes (c : Config) : Bool :=
  40000 ≤ c.tPowerOn && 4100 ≤ c.tBoot1 && 100 ≤ c.tBoot2 && 100 ≤ c.tBoot3 && 37 ≤ c.tCmd &&
    1520 ≤ c.tClear && 1520 ≤ c.tHome

/-- R8: WF_CFG. -/
def Config.wf (c : Config) : Bool :=
  c.cfgLines && c.cfgColumns && c.cfgFont && c.cfgPinmap && c.cfgLineStart && c.cfgTimes

/-- R64: the thirteen request constructors. -/
def Instr.isRequest : Instr → Bool
  | .init | .clear | .home | .setcur _ _ | .putc _ | .display _ | .cursor _ | .blink _ | .entry _ _
  | .shift _ _ | .backlight _ | .getbl | .pread => true
  | .clearDisplay | .returnHome _ | .entryModeSet _ _ | .displayControl _ _ _
  | .cursorDisplayShift _ _ _ | .functionSet _ _ _ _ | .setCgramAddr _ | .setDdramAddr _
  | .writeData _ | .noInstruction00 | .readBusyAddr _ | .readData _ | .bootNibble3
  | .bootNibble2 => false

/-- R64: the requests gated on READY. -/
def Instr.isGated : Instr → Bool
  | .clear | .home | .setcur _ _ | .putc _ | .display _ | .cursor _ | .blink _ | .entry _ _
  | .shift _ _ | .backlight _ => true
  | .init | .getbl | .pread | .clearDisplay | .returnHome _ | .entryModeSet _ _
  | .displayControl _ _ _ | .cursorDisplayShift _ _ _ | .functionSet _ _ _ _ | .setCgramAddr _
  | .setDdramAddr _ | .writeData _ | .noInstruction00 | .readBusyAddr _ | .readData _ | .bootNibble3
  | .bootNibble2 => false

end Sys2Proof
end

