-- ==== Sys2Proof/Decode.lean ====
section
/-! DEFINITION. The decoder and the encoder. Three forms reach the machine: a 10-bit HD44780 word
{RS, RW, DB7..DB0} (R57, R58), a 6-bit bootstrap nibble {RS, RW, D7..D4} (R63), and a request, either the
typed value of R64 or a line of R71's syntax. Each form decodes to an instruction or is rejected by name. -/

namespace Sys2Proof

/-- Why an input is no instruction. -/
inductive DecodeError where
  /-- A blank or comment line (R71): it presents no request (log entry 10). -/
  | noRequest
  /-- A line whose first token is no mnemonic of R71. -/
  | unknownMnemonic
  /-- A line whose operands do not have the form R71 gives its mnemonic. -/
  | badOperands
  /-- A `PUTC` operand above 0xFF (R64: 8 bits). -/
  | byteOutOfRange
  /-- R68: a value presented on the request port that is none of the 13 requests. -/
  | notARequest
  /-- R62, R63: a single nibble that is neither bootstrap nibble. -/
  | notABootNibble
  deriving DecidableEq, Repr

/-- What a decoder answers. -/
inductive Decoded where
  | ok (i : Instr)
  | reject (e : DecodeError)
  deriving DecidableEq, Repr

/-- One input of the machine. -/
inductive Item where
  /-- R64: a typed request presented on the request port. -/
  | request (i : Instr)
  /-- R71: a request written as a line of text. -/
  | line (cs : List Char)
  /-- R57: a 10-bit word at the controller, RS in bit 9 and RW in bit 8. -/
  | word (w : BitVec 10)
  /-- R63: a single nibble at the controller, RS in bit 5 and RW in bit 4. -/
  | nibble (w : BitVec 6)
  deriving DecidableEq, Repr

/-! ### Words and nibbles -/

/-- R58: with RS = RW = 0 the instruction is chosen by the highest set bit of DB7..DB0. -/
def decodeInstruction (v : BitVec 8) : Instr :=
  if v.getLsbD 7 then .setDdramAddr (v.extractLsb' 0 7)
  else if v.getLsbD 6 then .setCgramAddr (v.extractLsb' 0 6)
  else if v.getLsbD 5 then .functionSet (v.getLsbD 4) (v.getLsbD 3) (v.getLsbD 2) (v.extractLsb' 0 2)
  else if v.getLsbD 4 then .cursorDisplayShift (v.getLsbD 3) (v.getLsbD 2) (v.extractLsb' 0 2)
  else if v.getLsbD 3 then .displayControl (v.getLsbD 2) (v.getLsbD 1) (v.getLsbD 0)
  else if v.getLsbD 2 then .entryModeSet (v.getLsbD 1) (v.getLsbD 0)
  else if v.getLsbD 1 then .returnHome (v.extractLsb' 0 1)
  else if v.getLsbD 0 then .clearDisplay
  else .noInstruction00

/-- R57, R58, R60: every 10-bit word is an instruction. -/
def decodeWord (w : BitVec 10) : Instr :=
  let v := w.extractLsb' 0 8
  match w.getLsbD 9, w.getLsbD 8 with
  | false, false => decodeInstruction v
  | true, false => .writeData v
  | false, true => .readBusyAddr v
  | true, true => .readData v

/-- R63: the two bootstrap nibbles. -/
def decodeNibble (w : BitVec 6) : Decoded :=
  if w = 0b000011#6 then .ok .bootNibble3
  else if w = 0b000010#6 then .ok .bootNibble2
  else .reject .notABootNibble

/-! ### Request lines (R71) -/

/-- A token of a request line. -/
inductive Token where
  | atom (cs : List Char)
  | chr (c : Char)
  | comma
  | bad
  deriving DecidableEq, Repr

/-- Closes the token whose characters, latest first, are `acc`. -/
def flushAtom (acc : List Char) (ts : List Token) : List Token :=
  if acc.isEmpty then ts else .atom acc.reverse :: ts

/-- R71: `c` is a printable ASCII character. -/
def isPrintable (c : Char) : Bool := 0x20 ≤ c.toNat && c.toNat ≤ 0x7E

/-- R71: cuts a line into tokens. `;` starts a comment; blanks separate tokens; a character stands between two
`'`. DESIGN CHOICE (log entry 13): a comma and a `'` also end the token before them, so no blank is needed
there (`PUTC'A'`, `SHIFT 1,0`). -/
def lexLine : List Char → List Char → List Token
  | [], acc => flushAtom acc []
  | c :: cs, acc =>
    if c = ';' then flushAtom acc []
    else if c = ' ' || c = '\t' then flushAtom acc (lexLine cs [])
    else if c = ',' then flushAtom acc (.comma :: lexLine cs [])
    else if c = '\'' then
      match cs with
      | d :: '\'' :: rest =>
        flushAtom acc ((if isPrintable d then .chr d else .bad) :: lexLine rest [])
      | _ => flushAtom acc [.bad]
    else lexLine cs (c :: acc)

/-- The value of a decimal digit. -/
def decValue (c : Char) : Option Nat :=
  if 0x30 ≤ c.toNat && c.toNat ≤ 0x39 then some (c.toNat - 0x30) else none

/-- The value of a hexadecimal digit. -/
def hexValue (c : Char) : Option Nat :=
  if 0x30 ≤ c.toNat && c.toNat ≤ 0x39 then some (c.toNat - 0x30)
  else if 0x41 ≤ c.toNat && c.toNat ≤ 0x46 then some (c.toNat - 0x37)
  else if 0x61 ≤ c.toNat && c.toNat ≤ 0x66 then some (c.toNat - 0x57)
  else none

/-- Reads digits of a base, most significant first, on from `acc`. -/
def readDigits (value : Char → Option Nat) (base : Nat) : List Char → Nat → Option Nat
  | [], acc => some acc
  | c :: cs, acc =>
    match value c with
    | some d => readDigits value base cs (acc * base + d)
    | none => none

/-- R71: a number is decimal or `0x` hexadecimal. -/
def readNumber : List Char → Option Nat
  | '0' :: 'x' :: c :: cs => readDigits hexValue 16 (c :: cs) 0
  | c :: cs => readDigits decValue 10 (c :: cs) 0
  | [] => none

/-- R71: a number, or the code of a character. -/
def tokenNat : Token → Option Nat
  | .atom cs => readNumber cs
  | .chr c => some c.toNat
  | .comma => none
  | .bad => none

/-- R71: a Bool is `0` or `1`. -/
def tokenBool : Token → Option Bool
  | .atom cs => if cs = ['0'] then some false else if cs = ['1'] then some true else none
  | .chr _ => none
  | .comma => none
  | .bad => none

/-- A request with no operand. -/
def operands0 (i : Instr) : List Token → Decoded
  | [] => .ok i
  | _ => .reject .badOperands

/-- A request with one Bool. -/
def operandsBool (mk : Bool → Instr) : List Token → Decoded
  | [t] =>
    match tokenBool t with
    | some b => .ok (mk b)
    | none => .reject .badOperands
  | _ => .reject .badOperands

/-- A request with two Bools. -/
def operandsBool2 (mk : Bool → Bool → Instr) : List Token → Decoded
  | [t, .comma, u] =>
    match tokenBool t, tokenBool u with
    | some a, some b => .ok (mk a b)
    | _, _ => .reject .badOperands
  | _ => .reject .badOperands

/-- `SETCUR <line>, <col>`. -/
def operandsSetcur : List Token → Decoded
  | [t, .comma, u] =>
    match tokenNat t, tokenNat u with
    | some a, some b => .ok (.setcur a b)
    | _, _ => .reject .badOperands
  | _ => .reject .badOperands

/-- `PUTC <byte>`. -/
def operandsPutc : List Token → Decoded
  | [t] =>
    match tokenNat t with
    | some n => if n < 256 then .ok (.putc (BitVec.ofNat 8 n)) else .reject .byteOutOfRange
    | none => .reject .badOperands
  | _ => .reject .badOperands

/-- R71: a request from its tokens. -/
def decodeTokens : List Token → Decoded
  | [] => .reject .noRequest
  | .atom m :: ts =>
    if m = ['I', 'N', 'I', 'T'] then operands0 .init ts
    else if m = ['C', 'L', 'E', 'A', 'R'] then operands0 .clear ts
    else if m = ['H', 'O', 'M', 'E'] then operands0 .home ts
    else if m = ['S', 'E', 'T', 'C', 'U', 'R'] then operandsSetcur ts
    else if m = ['P', 'U', 'T', 'C'] then operandsPutc ts
    else if m = ['D', 'I', 'S', 'P', 'L', 'A', 'Y'] then operandsBool .display ts
    else if m = ['C', 'U', 'R', 'S', 'O', 'R'] then operandsBool .cursor ts
    else if m = ['B', 'L', 'I', 'N', 'K'] then operandsBool .blink ts
    else if m = ['E', 'N', 'T', 'R', 'Y'] then operandsBool2 .entry ts
    else if m = ['S', 'H', 'I', 'F', 'T'] then operandsBool2 .shift ts
    else if m = ['B', 'A', 'C', 'K', 'L', 'I', 'G', 'H', 'T'] then operandsBool .backlight ts
    else if m = ['G', 'E', 'T', 'B', 'L'] then operands0 .getbl ts
    else if m = ['P', 'R', 'E', 'A', 'D'] then operands0 .pread ts
    else .reject .unknownMnemonic
  | _ :: _ => .reject .unknownMnemonic

/-- R71: a request from its line. -/
def decodeLine (cs : List Char) : Decoded := decodeTokens (lexLine cs [])

/-- R64, R68: the request port takes the 13 requests and refuses any other value by name. -/
def decodeRequest (i : Instr) : Decoded := if i.isRequest then .ok i else .reject .notARequest

/-- The decoder: total on every input. -/
def Item.decode : Item → Decoded
  | .request i => decodeRequest i
  | .line cs => decodeLine cs
  | .word w => .ok (decodeWord w)
  | .nibble w => decodeNibble w

/-! ### The encoder -/

/-- The decimal digit of a value below 10. -/
def digitChar (d : Nat) : Char := Char.ofNat (0x30 + d)

/-- The decimal digits of `n` in front of `acc`; `fuel` bounds their number. -/
def writeDigits : Nat → Nat → List Char → List Char
  | 0, _, acc => acc
  | fuel + 1, n, acc =>
    if n < 10 then digitChar n :: acc else writeDigits fuel (n / 10) (digitChar (n % 10) :: acc)

/-- R71: a number in decimal. -/
def writeNumber (n : Nat) : List Char := writeDigits (n + 1) n []

/-- R71: a Bool. -/
def writeBool (b : Bool) : List Char := if b then ['1'] else ['0']

/-- R71: two operands. -/
def writePair (a b : List Char) : List Char := a ++ [',', ' '] ++ b

/-- R58, R60: the 10-bit word of a word constructor, from the table's patterns. -/
def encodeWord : Instr → Option (BitVec 10)
  | .clearDisplay => some 0b0000000001#10
  | .returnHome x => some (0b000000001#9 ++ x)
  | .entryModeSet i s => some (0b00000001#8 ++ BitVec.ofBool i ++ BitVec.ofBool s)
  | .displayControl d c b => some (0b0000001#7 ++ BitVec.ofBool d ++ BitVec.ofBool c ++ BitVec.ofBool b)
  | .cursorDisplayShift s r x => some (0b000001#6 ++ BitVec.ofBool s ++ BitVec.ofBool r ++ x)
  | .functionSet l n f x =>
    some (0b00001#5 ++ BitVec.ofBool l ++ BitVec.ofBool n ++ BitVec.ofBool f ++ x)
  | .setCgramAddr a => some (0b0001#4 ++ a)
  | .setDdramAddr a => some (0b001#3 ++ a)
  | .writeData v => some (0b10#2 ++ v)
  | .noInstruction00 => some 0b0000000000#10
  | .readBusyAddr x => some (0b01#2 ++ x)
  | .readData x => some (0b11#2 ++ x)
  | .bootNibble3 | .bootNibble2 | .init | .clear | .home | .setcur _ _ | .putc _ | .display _
  | .cursor _ | .blink _ | .entry _ _ | .shift _ _ | .backlight _ | .getbl | .pread => none

/-- R71: the line of a request. -/
def encodeLine : Instr → Option (List Char)
  | .init => some ['I', 'N', 'I', 'T']
  | .clear => some ['C', 'L', 'E', 'A', 'R']
  | .home => some ['H', 'O', 'M', 'E']
  | .setcur l c => some (['S', 'E', 'T', 'C', 'U', 'R', ' '] ++ writePair (writeNumber l) (writeNumber c))
  | .putc b => some (['P', 'U', 'T', 'C', ' '] ++ writeNumber b.toNat)
  | .display o => some (['D', 'I', 'S', 'P', 'L', 'A', 'Y', ' '] ++ writeBool o)
  | .cursor o => some (['C', 'U', 'R', 'S', 'O', 'R', ' '] ++ writeBool o)
  | .blink o => some (['B', 'L', 'I', 'N', 'K', ' '] ++ writeBool o)
  | .entry i s => some (['E', 'N', 'T', 'R', 'Y', ' '] ++ writePair (writeBool i) (writeBool s))
  | .shift s r => some (['S', 'H', 'I', 'F', 'T', ' '] ++ writePair (writeBool s) (writeBool r))
  | .backlight o => some (['B', 'A', 'C', 'K', 'L', 'I', 'G', 'H', 'T', ' '] ++ writeBool o)
  | .getbl => some ['G', 'E', 'T', 'B', 'L']
  | .pread => some ['P', 'R', 'E', 'A', 'D']
  | .clearDisplay | .returnHome _ | .entryModeSet _ _ | .displayControl _ _ _
  | .cursorDisplayShift _ _ _ | .functionSet _ _ _ _ | .setCgramAddr _ | .setDdramAddr _
  | .writeData _ | .noInstruction00 | .readBusyAddr _ | .readData _ | .bootNibble3
  | .bootNibble2 => none

/-- R63: the nibble of a bootstrap constructor. -/
def encodeNibble : Instr → BitVec 6
  | .bootNibble2 => 0b000010#6
  | _ => 0b000011#6

/-- The encoder: a word, a request line, or a bootstrap nibble. -/
def encode (i : Instr) : Item :=
  match encodeWord i with
  | some w => .word w
  | none =>
    match encodeLine i with
    | some cs => .line cs
    | none => .nibble (encodeNibble i)

/-! ### The opcode table's numbering -/

/-- The input whose bits are `w` in the opcode table's numbering. The table's nibbles have 6 bits (one
byte in whole bytes) and its words 10 (two bytes); its request rows have no bits (R64). -/
def itemOfTable (nbits w : Nat) : Option Item :=
  if nbits = 0 then none
  else if nbits ≤ 8 then (if w < 2 ^ 6 then some (.nibble (BitVec.ofNat 6 w)) else none)
  else if nbits ≤ 16 then (if w < 2 ^ 10 then some (.word (BitVec.ofNat 10 w)) else none)
  else none

/-- The instruction the decoder reads from bits numbered as the opcode table numbers them. -/
def decodeTableWord (nbits w : Nat) : Option Instr :=
  match itemOfTable nbits w with
  | some it =>
    match it.decode with
    | .ok i => some i
    | .reject _ => none
  | none => none

end Sys2Proof
end

