-- ==== Sys2Proof/Machine/State.lean ====
section
/-! DEFINITION. The state: the configuration, the engine's registers (R14), the observer's (R107), the
transport's answers, the port's trace (R12) and the inputs still to come. All of it is plain data. -/

namespace Sys2Proof.Machine

/-- R15: the FSM states. The value 3 is never written, and no state holds it (I32). -/
inductive Fsm where
  | uninit
  | initializing
  | ready
  deriving DecidableEq, Repr

/-- R15: the 2-bit value of an FSM state. -/
def Fsm.code : Fsm → BitVec 2
  | .uninit => 0#2
  | .initializing => 1#2
  | .ready => 2#2

/-- R14: the engine state, field by field. -/
structure Engine where
  /-- R15. -/
  fsm      : Fsm
  /-- R16: the index of the next micro-operation of the current request. -/
  seq      : Nat
  /-- R17: a request is in progress. -/
  busy     : Bool
  /-- R18: the backlight cache. -/
  bl       : Bool
  /-- R19: D in bit 2, C in bit 1, B in bit 0. -/
  ctrl     : BitVec 3
  /-- R20: ID in bit 1, S in bit 0. -/
  entry    : BitVec 2
  /-- R22: the last frame written with success. -/
  shadow   : Frame
  /-- R23. -/
  syncLost : Bool
  deriving DecidableEq, Repr

/-- R12: a port event. -/
inductive Event where
  | busWrite (addr : BitVec 7) (byte : Frame) (ok : Bool)
  | busRead (addr : BitVec 7) (result : Option Byte)
  | wait (t : Nat)
  deriving DecidableEq, Repr

/-- R131: the response codes. -/
inductive Code where
  | ok
  | busError
  | notInitialized
  | outOfBounds
  deriving DecidableEq, Repr

/-- R66, R131: the 2-bit value of a response code. -/
def Code.value : Code → BitVec 2
  | .ok => 0#2
  | .busError => 1#2
  | .notInitialized => 2#2
  | .outOfBounds => 3#2

/-- R12: what the port shows, in order: the events of a request and then its response (R66). -/
inductive Emission where
  | event (e : Event)
  | response (code : Code) (data : Option Byte)
  deriving DecidableEq, Repr

/-- R112: the controller's interface mode. -/
inductive IfMode where
  | eight
  | fourHi
  | fourLo (hi : Nibble) (rs : Bool)
  deriving DecidableEq, Repr

/-- R107: which RAM the address counter points into. -/
inductive Space where
  | dd
  | cg
  deriving DecidableEq, Repr

/-- R107, R118: the observer's faults. -/
inductive ObsFault where
  | none
  | hazardBusy
  | hazardHold
  | undefInstr
  deriving DecidableEq, Repr

/-- A memory: its cells at strictly rising addresses, without those that hold what an unlisted address
reads as (Memory.lean). -/
abbrev Memory := List Host.Cell

/-- R107: the observer state, the PCF8574's latch and the HD44780's registers. The last four fields are
the model's own. -/
structure Observer where
  /-- R108. -/
  latch  : Frame
  /-- R112. -/
  ifmode : IfMode
  /-- The address counter. -/
  ac     : DdAddr
  space  : Space
  ddram  : Memory
  cgram  : Memory
  /-- Entry mode: I/D and S. -/
  id     : Bool
  s      : Bool
  /-- Display control: display, cursor, blink. -/
  d      : Bool
  c      : Bool
  b      : Bool
  /-- Function set: DL, N, F. -/
  dl     : Bool
  n      : Bool
  f      : Bool
  /-- The display shift. -/
  shift  : Nat
  /-- R115: microseconds of execution still to run. -/
  busy   : Nat
  /-- R118. -/
  fault  : ObsFault
  /-- The model's own (log entry 6): the observer has refused a latched read cycle (R111, R118). -/
  refused : Bool
  /-- The model's own (log entry 5): values for the draws still to come. -/
  draws  : List Byte
  /-- The model's own (log entry 5): how many draws were made. -/
  drawn  : Nat
  /-- The model's own (log entry 26): busy times for the draws of R89 still to come. -/
  times  : List Nat
  deriving DecidableEq, Repr

/-- The model's own (log entry 4): the transport's answers still to come, and how many it gave. -/
structure Transport where
  answers : List Answer
  given   : Nat
  deriving DecidableEq, Repr

/-- The machine's state. -/
structure State where
  /-- R7: fixed for the life of the instance. -/
  cfg   : Config
  /-- R14. -/
  eng   : Engine
  /-- R107. -/
  obs   : Observer
  /-- R39, R40. -/
  bus   : Transport
  /-- R12: everything the port has shown, oldest first. -/
  trace : List Emission
  /-- R64: the inputs still to come, the next one first. -/
  inbox : List Item
  deriving DecidableEq, Repr

/-- Reasons a step faults at the host's interface. There is none (log entry 11): R131 to R138 make every
engine error a response and R118 makes every observer fault a field of the observer, after both of which the
machine goes on. -/
inductive Fault where
  deriving DecidableEq, Repr

/-- Reasons a step is refused. -/
inductive Refusal where
  /-- An instruction without a meaning yet, rejected by exec's arm. Safe. -/
  | notModelled (mnemonic : String)
  /-- R8: a request to a configuration that fails WF_CFG; no engine instance exists for it. Safe. -/
  | illFormedConfig
  /-- R17, I34: a request presented while `busy = 1`; the port accepts none. Safe. -/
  | portBusy
  /-- R111, R118, I35: a read cycle at the controller, which the spec refuses. Safe. -/
  | readCycle
  /-- R68: an input that decodes to no instruction. Safe. -/
  | undecodable (e : DecodeError)
  deriving DecidableEq, Repr

/-- R32: the engine state at instance creation. -/
def Engine.reset (c : Config) : Engine :=
  { fsm := .uninit, seq := 0, busy := false, bl := c.backlightInit, ctrl := 0b000#3, entry := 0b00#2,
    shadow := 0x00#8, syncLost := false }

/-- R127: the observer's power-on state. `latch`, `busy` and `fault` are the spec's; every other register is
a draw there, and DESIGN CHOICE (log entry 2) gives each the value of the internal reset R127 names.
`State.PoweredOn` (Safety.lean) leaves them free. -/
def Observer.reset (c : Config) : Observer :=
  { latch := 0xFF#8, ifmode := .eight, ac := 0#7, space := .dd, ddram := [], cgram := [], id := true,
    s := false, d := false, c := false, b := false, dl := true, n := false, f := false, shift := 0,
    busy := c.obsTPon, fault := .none, refused := false, draws := [], drawn := 0,
    times := [] }

/-- R148: the machine at instance creation, for a configuration. -/
def State.resetFor (c : Config) : State :=
  { cfg := c, eng := Engine.reset c, obs := Observer.reset c, bus := { answers := [], given := 0 },
    trace := [], inbox := [] }

/-- R148: the machine right after reset, for configuration D (log entry 1). -/
def State.reset : State := State.resetFor configD

end Sys2Proof.Machine
end

