-- ==== Sys2Proof/Machine/Memory.lean ====
section
/-! DEFINITION. The controller's two memories, DDRAM and CGRAM (R107), as canonical lists of cells. -/

namespace Sys2Proof.Machine

/-- What an unlisted address reads as: 0x20, the blank of R117 (log entry 3). -/
def Memory.unlisted : Byte := 0x20#8

/-- The byte at an address. -/
def Memory.read : Memory → Nat → Byte
  | [], _ => Memory.unlisted
  | (a, v) :: m, x => if x = a then v else Memory.read m x

/-- A list of cells with `(a, v)` in front, unless `v` is what an unlisted address reads as. -/
def Memory.cons (a : Nat) (v : Byte) (m : Memory) : Memory :=
  if v = Memory.unlisted then m else (a, v) :: m

/-- Writes a byte, keeping the canonical form. -/
def Memory.write : Memory → Nat → Byte → Memory
  | [], a, v => Memory.cons a v []
  | (b, w) :: m, a, v =>
    if a < b then Memory.cons a v ((b, w) :: m)
    else if a = b then Memory.cons a v m
    else (b, w) :: Memory.write m a v

/-- Blanks every cell whose address satisfies `p` (R117: 0x20 is what an unlisted address reads as). -/
def Memory.blankWhere (p : Nat → Bool) (m : Memory) : Memory := m.filter fun c => !p c.1

/-- The memory of `count` cells from `lo` on that hold `f` of their addresses. -/
def Memory.fill (f : Nat → Byte) : Nat → Nat → Memory
  | 0, _ => []
  | count + 1, lo => Memory.cons lo (f lo) (Memory.fill f count (lo + 1))

/-- The canonical form from address `lo` on: strictly rising, no cell as an unlisted address reads. -/
def Memory.wfFrom : Nat → Memory → Bool
  | _, [] => true
  | lo, (a, v) :: m => lo ≤ a && v != Memory.unlisted && Memory.wfFrom (a + 1) m

/-- The canonical form. -/
def Memory.wf (m : Memory) : Bool := Memory.wfFrom 0 m

/-- Every listed address is below `size`. -/
def Memory.inRange (size : Nat) (m : Memory) : Bool := m.all fun c => c.1 < size

end Sys2Proof.Machine
end

