-- ==== Sys2Proof/Machine/Controller.lean ====
section
/-! DEFINITION. The HD44780 controller: what each word does to its registers (R115 to R126), and how
nibbles become words (R113). -/

namespace Sys2Proof.Machine

/-! ### Draws -/

/-- The next draw: the next listed value, or else the free value (log entry 5). -/
def Observer.drawValue (o : Observer) : Byte :=
  match o.draws with
  | v :: _ => v
  | [] => Config.freeByte o.drawn

/-- The observer after a draw. -/
def Observer.drawRest (o : Observer) : Observer :=
  { o with draws := o.draws.tail, drawn := o.drawn + 1 }

/-- The draw `k` places ahead: draw 0 is the next one. -/
def Observer.drawAt (o : Observer) (k : Nat) : Byte :=
  match o.draws[k]? with
  | some v => v
  | none => Config.freeByte (o.drawn + k)

/-- The observer after `k` draws. -/
def Observer.skipDraws (k : Nat) (o : Observer) : Observer :=
  { o with draws := o.draws.drop k, drawn := o.drawn + k }

/-! ### Address arithmetic -/

/-- R107: LLEN(n). -/
def llen (twoLine : Bool) : Nat := if twoLine then 40 else 80

/-- R126: the address counter's step through DDRAM (log entry 14). -/
def acStep (twoLine : Bool) (a : DdAddr) (up : Bool) : DdAddr :=
  if twoLine then
    if up then (if a = 0x27#7 then 0x40#7 else if a = 0x67#7 then 0x00#7 else a + 1#7)
    else (if a = 0x40#7 then 0x27#7 else if a = 0x00#7 then 0x67#7 else a - 1#7)
  else
    if up then (if a = 0x4F#7 then 0x00#7 else a + 1#7)
    else (if a = 0x00#7 then 0x4F#7 else a - 1#7)

/-- R124: the existing DDRAM address a draw stands for. Every address of VALID_DDRAM is the value of some
draw (log entry 5). -/
def validPick (twoLine : Bool) (v : Byte) : DdAddr :=
  let k := v.toNat % 80
  if twoLine && 40 ≤ k then BitVec.ofNat 7 (0x40 + (k - 40)) else BitVec.ofNat 7 k

/-- R122, R125: the display shift after one shift; `left` counts up. -/
def shiftStep (twoLine : Bool) (shift : Nat) (left : Bool) : Nat :=
  (shift + (if left then 1 else llen twoLine - 1)) % llen twoLine

/-! ### Execution times (R115) -/

def longTime : Nat := 1520

def shortTime : Nat := 37

/-! ### Words -/

/-- R117. -/
def Observer.clearDisplay (o : Observer) : Observer :=
  { o with ddram := o.ddram.blankWhere (validDdram o.n), ac := 0#7, space := .dd, id := true, shift := 0,
           busy := longTime }

/-- R119. -/
def Observer.returnHome (o : Observer) : Observer :=
  { o with ac := 0#7, space := .dd, shift := 0, busy := longTime }

/-- R120. -/
def Observer.entryModeSet (inc sh : Bool) (o : Observer) : Observer :=
  { o with id := inc, s := sh, busy := shortTime }

/-- R121. -/
def Observer.displayControl (d c b : Bool) (o : Observer) : Observer :=
  { o with d := d, c := c, b := b, busy := shortTime }

/-- R122. -/
def Observer.cursorDisplayShift (sc rl : Bool) (o : Observer) : Observer :=
  if sc then { o with shift := shiftStep o.n o.shift (!rl), busy := shortTime }
  else { o with ac := acStep o.n o.ac rl, busy := shortTime }

/-- R123. Where `n` changes, the display shift (log entry 22) and the cells (log entry 7) stay as they are. -/
def Observer.functionSet (dl n f : Bool) (o : Observer) : Observer :=
  { o with dl := dl, n := n, f := f, ifmode := if dl then .eight else .fourHi, busy := shortTime }

/-- R124: `ac <- v[5:0]`. -/
def Observer.setCgramAddr (a : BitVec 6) (o : Observer) : Observer :=
  { o with ac := a.setWidth 7, space := .cg, busy := shortTime }

/-- R124: an address that does not exist sets `ac` to a draw from those that do. -/
def Observer.setDdramAddr (a : DdAddr) (o : Observer) : Observer :=
  if validDdram o.n a.toNat then { o with ac := a, space := .dd, busy := shortTime }
  else { o.drawRest with ac := validPick o.n o.drawValue, space := .dd, busy := shortTime }

/-- R107, R125: `ddram[a] <- v`, where the cell exists (log entry 7). -/
def Observer.storeDdram (v : Byte) (o : Observer) : Memory :=
  if validDdram o.n o.ac.toNat then o.ddram.write o.ac.toNat v else o.ddram

/-- R125: `ac[5:0]`, the CGRAM cell `ac` points to. -/
def cgAddr (a : DdAddr) : Nat := a.toNat % 64

/-- R125: the address counter after a CGRAM write. -/
def cgStep (a : DdAddr) (up : Bool) : DdAddr := BitVec.ofNat 7 ((a.toNat + (if up then 1 else 63)) % 64)

/-- R125. -/
def Observer.writeData (v : Byte) (o : Observer) : Observer :=
  match o.space with
  | .dd =>
    { o with ddram := o.storeDdram v, shift := if o.s then shiftStep o.n o.shift o.id else o.shift,
             ac := acStep o.n o.ac o.id, busy := shortTime }
  | .cg => { o with cgram := o.cgram.write (cgAddr o.ac) v, ac := cgStep o.ac o.id, busy := shortTime }

/-- R118: the word 0x00 with RS = 0. DESIGN CHOICE (log entry 27): it leaves the busy time as it is, because
R115's table gives no time for it. -/
def Observer.noInstruction (o : Observer) : Observer := { o with fault := .undefInstr }

/-- R118: the observer refuses a latched read cycle and takes no further event (log entry 6). -/
def Observer.refuseRead (o : Observer) : Observer := { o with refused := true }

/-- R116: the controller executes a word. No constructor but a word reaches it. -/
def Observer.runWord (i : Instr) (o : Observer) : Observer :=
  match i with
  | .clearDisplay => o.clearDisplay
  | .returnHome _ => o.returnHome
  | .entryModeSet inc sh => o.entryModeSet inc sh
  | .displayControl d c b => o.displayControl d c b
  | .cursorDisplayShift sc rl _ => o.cursorDisplayShift sc rl
  | .functionSet dl n f _ => o.functionSet dl n f
  | .setCgramAddr a => o.setCgramAddr a
  | .setDdramAddr a => o.setDdramAddr a
  | .writeData v => o.writeData v
  | .noInstruction00 => o.noInstruction
  | .readBusyAddr _ => o.refuseRead
  | .readData _ => o.refuseRead
  | .bootNibble3 | .bootNibble2 | .init | .clear | .home | .setcur _ _ | .putc _ | .display _
  | .cursor _ | .blink _ | .entry _ _ | .shift _ _ | .backlight _ | .getbl | .pread => o

/-- R57: the 10-bit word with RW = 0. -/
def wordOf (v : Byte) (rs : Bool) : BitVec 10 := BitVec.ofBool rs ++ 0#1 ++ v

/-- R116: `execute(v, rs)`. -/
def Observer.execute (v : Byte) (rs : Bool) (o : Observer) : Observer :=
  o.runWord (decodeWord (wordOf v rs))

/-! ### An indeterminate controller (R89, I23; log entry 26) -/

/-- R112: the interface mode a draw stands for. Every mode is the value of some draw. -/
def ifModePick (v : Byte) : IfMode :=
  if v.getLsbD 7 then .fourLo (v.extractLsb' 0 4) (v.getLsbD 4)
  else if v.getLsbD 6 then .fourHi
  else .eight

/-- R107: the RAM a draw's bit stands for. -/
def spacePick (b : Bool) : Space := if b then .cg else .dd

/-- R37: the address exists in one of the two line modes. -/
def anyDdram (a : Nat) : Bool := validDdram true a || validDdram false a

/-- R107: a DDRAM in which every cell that exists in a line mode is a draw, the first of them `k` ahead. -/
def Observer.drawDdram (o : Observer) (k : Nat) : Memory :=
  Memory.fill (fun a => if anyDdram a then o.drawAt (k + a) else Memory.unlisted) 128 0

/-- R107: a CGRAM in which every cell is a draw, the first of them `k` ahead. -/
def Observer.drawCgram (o : Observer) (k : Nat) : Memory := Memory.fill (fun a => o.drawAt (k + a)) 64 0

/-- I23: an execution time still to run, with no bound: the next listed one, or else the free value. -/
def Observer.drawBusy (o : Observer) : Nat :=
  match o.times with
  | t :: _ => t
  | [] => Config.freeTime o.drawn

/-- R89, I23: the controller after a failed INIT: every one of its fields is a draw. The latch is the
expander's, whose own draw R109 gives, and a fault is never cleared (R118). -/
def Observer.indeterminate (o : Observer) : Observer :=
  { o.skipDraws 197 with
    ifmode := ifModePick (o.drawAt 0)
    ac := (o.drawAt 1).extractLsb' 0 7
    space := spacePick ((o.drawAt 2).getLsbD 0)
    id := (o.drawAt 2).getLsbD 1
    s := (o.drawAt 2).getLsbD 2
    d := (o.drawAt 2).getLsbD 3
    c := (o.drawAt 2).getLsbD 4
    b := (o.drawAt 2).getLsbD 5
    dl := (o.drawAt 2).getLsbD 6
    f := (o.drawAt 2).getLsbD 7
    n := (o.drawAt 3).getLsbD 0
    shift := (o.drawAt 4).toNat % llen ((o.drawAt 3).getLsbD 0)
    ddram := o.drawDdram 5
    cgram := o.drawCgram 133
    busy := o.drawBusy
    times := o.times.tail }

/-! ### Nibbles -/

/-- R113: which RS a word uses when its nibbles disagree, `r` of the first and `rs` of the second. -/
def rsPick (r rs : Bool) (v : Byte) : Bool := if v.getLsbD 0 then rs else r

/-- R113: the level of the floating lines DB3..DB0, by a draw. -/
def floatingNibble (v : Byte) : Nibble := v.extractLsb' 0 4

/-- R113: `take_nibble(nib, rs)`. -/
def Observer.takeNibble (nib : Nibble) (rs : Bool) (o : Observer) : Observer :=
  match o.ifmode with
  | .eight => o.drawRest.execute (nib ++ floatingNibble o.drawValue) rs
  | .fourHi => { o with ifmode := .fourLo nib rs }
  | .fourLo h r =>
    if r = rs then { o with ifmode := .fourHi }.execute (h ++ nib) rs
    else { o.drawRest with ifmode := .fourHi }.execute (h ++ nib) (rsPick r rs o.drawValue)

/-- R118: the observer still takes events. -/
def Observer.running (o : Observer) : Bool := o.fault = .none && !o.refused

/-- R115, R118: something reaches the controller. A stopped observer takes nothing, and a busy controller
is the fault HAZARD_BUSY. -/
def Observer.receive (f : Observer → Observer) (o : Observer) : Observer :=
  if o.running then (if 0 < o.busy then { o with fault := .hazardBusy } else f o) else o

end Sys2Proof.Machine
end

