-- ==== Sys2Proof/Machine/Flags.lean ====
section
/-! DEFINITION. The engine's flags: the backlight line (R56) and the fields of the display-control and
entry-mode mirrors (R19, R20). -/

namespace Sys2Proof.Machine

/-- R56: the level of the BL line, `b2u(on) XOR b2u(not BL_ACTIVE_HIGH)`. -/
def blBit (c : Config) (on : Bool) : Bool := xor on (!c.blActiveHigh)

/-- R19: `ctrl.D`. -/
def ctrlD (m : BitVec 3) : Bool := m.getLsbD 2

/-- R19: `ctrl.C`. -/
def ctrlC (m : BitVec 3) : Bool := m.getLsbD 1

/-- R19: `ctrl.B`. -/
def ctrlB (m : BitVec 3) : Bool := m.getLsbD 0

/-- R19: the mirror of three flags. -/
def ctrlOf (d c b : Bool) : BitVec 3 := BitVec.ofBool d ++ BitVec.ofBool c ++ BitVec.ofBool b

/-- R97: `ctrl.D <- on`. -/
def setCtrlD (m : BitVec 3) (on : Bool) : BitVec 3 := ctrlOf on (ctrlC m) (ctrlB m)

/-- R98: `ctrl.C <- on`. -/
def setCtrlC (m : BitVec 3) (on : Bool) : BitVec 3 := ctrlOf (ctrlD m) on (ctrlB m)

/-- R99: `ctrl.B <- on`. -/
def setCtrlB (m : BitVec 3) (on : Bool) : BitVec 3 := ctrlOf (ctrlD m) (ctrlC m) on

/-- R20: `entry.ID`. -/
def entryId (m : BitVec 2) : Bool := m.getLsbD 1

/-- R20: `entry.S`. -/
def entryS (m : BitVec 2) : Bool := m.getLsbD 0

/-- R100: `(b2u(id) << 1) | b2u(s)`. -/
def entryOf (inc sh : Bool) : BitVec 2 := BitVec.ofBool inc ++ BitVec.ofBool sh

end Sys2Proof.Machine
end

