-- ==== Sys2Proof/Machine/Operands.lean ====
section
/-! DEFINITION. Frames, the nibble encoder, instruction bytes and micro-operation lists (R42, R54 to R59,
R73 to R79, R87). -/

namespace Sys2Proof.Machine

/-! ### Masks and frames -/

/-- R73: `1 << i`. -/
def maskOf (i : Fin 8) : Byte := 1#8 <<< i.val

/-- A signal's level at a bit position. -/
def signal (level : Bool) (i : Fin 8) : Byte := if level then maskOf i else 0#8

/-- R74: the frame builder. -/
def frame (c : Config) (n : Nibble) (rs blv e : Bool) : Frame :=
  signal (n.getLsbD 0) c.pinmap.d4 ||| signal (n.getLsbD 1) c.pinmap.d5
    ||| signal (n.getLsbD 2) c.pinmap.d6 ||| signal (n.getLsbD 3) c.pinmap.d7
    ||| signal rs c.pinmap.rs
    ||| signal false c.pinmap.rw
    ||| signal e c.pinmap.e
    ||| signal (blBit c blv) c.pinmap.bl

/-- R80: the frame of a backlight write, `(shadow & ~M_BL) | (blbit(on) << pos(BL))`. -/
def backlightFrame (c : Config) (shadow : Frame) (on : Bool) : Frame :=
  (shadow &&& ~~~(maskOf c.pinmap.bl)) ||| signal (blBit c on) c.pinmap.bl

/-- R75: the mode of a transfer. -/
inductive Mode where
  | instruction
  | data
  deriving DecidableEq, Repr

/-- R75. -/
def rsOf : Mode → Bool
  | .instruction => false
  | .data => true

/-- R41, R76: the high nibble. -/
def hiNibble (v : Byte) : Nibble := v.extractLsb' 4 4

/-- R41, R76: the low nibble. -/
def loNibble (v : Byte) : Nibble := v.extractLsb' 0 4

/-- The two frames of a nibble transfer: E = 1, then E = 0 (R74, R79). -/
def nibbleFrames (c : Config) (n : Nibble) (rs blv : Bool) : List Frame :=
  [frame c n rs blv true, frame c n rs blv false]

/-- R76: the nibble encoder, `encode(v, mode, blv)`. -/
def encodeFrames (c : Config) (v : Byte) (m : Mode) (blv : Bool) : List Frame :=
  nibbleFrames c (hiNibble v) (rsOf m) blv ++ nibbleFrames c (loNibble v) (rsOf m) blv

/-! ### Instruction bytes (R59) -/

def clearByte : Byte := 0x01#8

def homeByte : Byte := 0x02#8

/-- R59: ENTRY_BYTE(id, s). -/
def entryByte (inc sh : Bool) : Byte := 0x04#8 ||| (b2u inc <<< 1) ||| b2u sh

/-- R59: DISPCTL_BYTE(d, c, b). -/
def dispctlByte (d c b : Bool) : Byte := 0x08#8 ||| (b2u d <<< 2) ||| (b2u c <<< 1) ||| b2u b

/-- R19, R97 to R99: `0x08 | ctrl`. -/
def ctrlByte (m : BitVec 3) : Byte := 0x08#8 ||| m.setWidth 8

/-- R59: SHIFT_BYTE(sc, rl). -/
def shiftByte (sc rl : Bool) : Byte := 0x10#8 ||| (b2u sc <<< 3) ||| (b2u rl <<< 2)

/-- R21, R59: FUNCSET_BYTE, with FS_DL = 0. -/
def funcsetByte (c : Config) : Byte :=
  0x20#8 ||| (b2u false <<< 4) ||| (b2u (fsN c) <<< 3) ||| (b2u (fsF c) <<< 2)

/-- R59: DDADDR_BYTE(a). -/
def ddAddrByte (a : DdAddr) : Byte := 0x80#8 ||| a.setWidth 8

/-! ### Micro-operations (R16) -/

/-- R16: a micro-operation is one PortWrite, PortRead or Wait. -/
inductive MicroOp where
  | write (f : Frame)
  | read
  | wait (t : Nat)
  deriving DecidableEq, Repr

/-- R78: `send(v, mode, t)`. -/
def sendOps (c : Config) (bl : Bool) (v : Byte) (m : Mode) (t : Nat) : List MicroOp :=
  (encodeFrames c v m bl).map .write ++ [.wait t]

/-- R79: `boot_nibble(n, t)`. -/
def bootOps (c : Config) (bl : Bool) (n : Nibble) (t : Nat) : List MicroOp :=
  (nibbleFrames c n false bl).map .write ++ [.wait t]

/-- R87: steps 0 and 1 of INIT. -/
def bootstrapOps (c : Config) (bl : Bool) : List MicroOp :=
  [.wait c.tPowerOn] ++ bootOps c bl 0x3#4 c.tBoot1 ++ bootOps c bl 0x3#4 c.tBoot2
    ++ bootOps c bl 0x3#4 c.tBoot3 ++ bootOps c bl 0x2#4 c.tCmd

/-- R87: steps 2 to 6 of INIT. -/
def setupOps (c : Config) (bl : Bool) : List MicroOp :=
  sendOps c bl (funcsetByte c) .instruction c.tCmd
    ++ sendOps c bl (dispctlByte false false false) .instruction c.tCmd
    ++ sendOps c bl clearByte .instruction c.tClear
    ++ sendOps c bl (entryByte true false) .instruction c.tCmd
    ++ sendOps c bl (dispctlByte true false false) .instruction c.tCmd

/-- R87, R88: the micro-operations of INIT, in their fixed order. -/
def initOps (c : Config) (bl : Bool) : List MicroOp := bootstrapOps c bl ++ setupOps c bl

end Sys2Proof.Machine
end

