-- ==== Sys2Proof/Machine/Ops.lean ====
section
/-! DEFINITION. The shared operations: the observer's event rules (R108 to R114), the two port primitives
and the wait (R39, R40, R81), the run of a micro-operation list (R16, R135), raising an error and
responding (R131 to R136), and accepting a request (R8, R17, R92). -/

namespace Sys2Proof.Machine

/-! ### The observer's events -/

/-- The level of a line in a frame. -/
def line (f : Frame) (i : Fin 8) : Bool := f.getLsbD i.val

/-- R111: the nibble on D7..D4. -/
def dataNibble (c : Config) (f : Frame) : Nibble :=
  BitVec.ofBool (line f c.pinmap.d7) ++ BitVec.ofBool (line f c.pinmap.d6)
    ++ BitVec.ofBool (line f c.pinmap.d5) ++ BitVec.ofBool (line f c.pinmap.d4)

/-- R111: the lines that must hold across the edge: all but E and BL. -/
def heldLines (c : Config) (f : Frame) : Frame :=
  f &&& ~~~(maskOf c.pinmap.e) &&& ~~~(maskOf c.pinmap.bl)

/-- R111: `edge(a, b)`, on a falling E from latch value `a` to `b`. -/
def Observer.fallingEdge (c : Config) (a b : Frame) (o : Observer) : Observer :=
  if 0 < o.busy then { o with fault := .hazardBusy }
  else if heldLines c a ≠ heldLines c b then { o with fault := .hazardHold }
  else if line a c.pinmap.rw then o.refuseRead
  else o.takeNibble (dataNibble c a) (line a c.pinmap.rs)

/-- R108, R111: the latch takes a value, and the edge rule runs. -/
def Observer.latchTo (c : Config) (v : Frame) (o : Observer) : Observer :=
  if line o.latch c.pinmap.e && !line v c.pinmap.e then { o with latch := v }.fallingEdge c o.latch v
  else { o with latch := v }

/-- R109: a failed write leaves the old value or the new one, by a draw. -/
def Observer.failedWrite (c : Config) (v : Frame) (o : Observer) : Observer :=
  if o.drawValue.getLsbD 0 then o.drawRest.latchTo c v else o.drawRest

/-- R107 to R118: the observer takes an event. -/
def Observer.take (c : Config) (ev : Event) (o : Observer) : Observer :=
  if o.running then
    match ev with
    | .busWrite a v true => if a = c.i2cAddr then o.latchTo c v else o
    | .busWrite a v false => if a = c.i2cAddr then o.failedWrite c v else o
    | .busRead _ _ => o
    | .wait t => { o with busy := o.busy - t }
  else o

/-- R110: the backlight is lit. -/
def Observer.backlightLit (c : Config) (o : Observer) : Bool := line o.latch c.pinmap.bl = c.blActiveHigh

/-! ### The ports -/

/-- The transport's next answer: the next listed one, or else the free value (log entry 4). -/
def Transport.answer (b : Transport) : Answer :=
  match b.answers with
  | a :: _ => a
  | [] => Config.freeAnswer b.given

/-- The transport after an answer. -/
def Transport.rest (b : Transport) : Transport := { answers := b.answers.tail, given := b.given + 1 }

/-- R11, R12: `emit(ev)`. The event joins the trace, and the observer takes it. -/
def State.emit (ev : Event) (s : State) : State :=
  { s with trace := s.trace ++ [.event ev], obs := s.obs.take s.cfg ev }

/-- R16: a micro-operation has completed. -/
def State.tick (s : State) : State := { s with eng := { s.eng with seq := s.eng.seq + 1 } }

/-- The outcome of micro-operations: all completed, with the byte the last read returned, or a BusError. -/
inductive Ran where
  | done (data : Option Byte) (s : State)
  | busError (s : State)
  deriving DecidableEq, Repr

/-- R39: `PortWrite(b)`. -/
def portWrite (b : Frame) (data : Option Byte) (s : State) : Ran :=
  let t := { s with bus := s.bus.rest }.emit (.busWrite s.cfg.i2cAddr b s.bus.answer.ok)
  if s.bus.answer.ok then .done data { t with eng := { t.eng with shadow := b } }.tick else .busError t

/-- R40: the result of a read transaction. -/
def readResult (a : Answer) : Option Byte := if a.ok then some a.data else none

/-- R40: `PortRead()`. -/
def portRead (s : State) : Ran :=
  let t := { s with bus := s.bus.rest }.emit (.busRead s.cfg.i2cAddr (readResult s.bus.answer))
  match readResult s.bus.answer with
  | some v => .done (some v) t.tick
  | none => .busError t

/-- R81: `Wait(t)`. -/
def wait (t : Nat) (data : Option Byte) (s : State) : Ran := .done data (s.emit (.wait t)).tick

/-- R16: one micro-operation. -/
def runOp (op : MicroOp) (data : Option Byte) (s : State) : Ran :=
  match op with
  | .write f => portWrite f data s
  | .read => portRead s
  | .wait t => wait t data s

/-- R135: micro-operations in order, up to the first BusError. -/
def runOps : List MicroOp → Option Byte → State → Ran
  | [], data, s => .done data s
  | op :: ops, data, s =>
    match runOp op data s with
    | .done data' s' => runOps ops data' s'
    | .busError s' => .busError s'

/-! ### Responding and raising -/

/-- R136: `respond(code, data)`. -/
def respond (code : Code) (data : Option Byte) (s : State) : State :=
  { s with eng := { s.eng with seq := 0, busy := false }, trace := s.trace ++ [.response code data] }

/-- R132: NotInitializedError. -/
def raiseNotInitialized (s : State) : State := respond .notInitialized none s

/-- R133: OutOfBoundsError. -/
def raiseOutOfBounds (s : State) : State := respond .outOfBounds none s

/-- R134: BusError outside INIT. -/
def raiseBusError (s : State) : State :=
  respond .busError none { s with eng := { s.eng with syncLost := true } }

/-- R89, R134: BusError inside INIT. The controller is left indeterminate (I23). -/
def raiseInitBusError (s : State) : State :=
  respond .busError none
    { s with eng := { s.eng with syncLost := true, fsm := .uninit }, obs := s.obs.indeterminate }

/-- Runs the micro-operations of a request that is not INIT, and responds. -/
def perform (ops : List MicroOp) (s : State) : State :=
  match runOps ops none s with
  | .done data t => respond .ok data t
  | .busError t => raiseBusError t

/-- R78: `send(v, mode, t)`, and the response. -/
def transfer (v : Byte) (m : Mode) (t : Nat) (s : State) : State :=
  perform (sendOps s.cfg s.eng.bl v m t) s

/-! ### Accepting a request -/

/-- R8, R17: a request reaches the port. No engine exists for an ill-formed configuration, and a busy
port takes none (log entry 12). -/
def accept (body : State → State) (s : State) : Host.Outcome State Fault Refusal :=
  if s.cfg.wf then
    if s.eng.busy then .refused .portBusy
    else .next (body { s with eng := { s.eng with busy := true, seq := 0 } })
  else .refused .illFormedConfig

/-- R92: `gate()`. -/
def gated (body : State → State) (s : State) : State :=
  if s.eng.fsm = .ready then body s else raiseNotInitialized s

/-- Something happens at the controller alone. DESIGN CHOICE (log entry 8): a word reaches it whole, in
whatever interface mode, so a held nibble and 8-bit mode stay in place unless the word is a function set
(R123), while R113 brings words only through the interface mode. A nibble goes through it. -/
def atController (f : Observer → Observer) (s : State) : State := { s with obs := s.obs.receive f }

end Sys2Proof.Machine
end

