-- ==== Sys2Proof/Machine/Requests.lean ====
section
/-! DEFINITION. The meanings of the thirteen requests (R87 to R104). -/

namespace Sys2Proof.Machine

/-- R87: INIT's first writes. -/
def initBegin (s : State) : State :=
  { s with eng := { s.eng with fsm := .initializing, ctrl := 0b100#3, entry := 0b10#2 } }

/-- R87: INIT's last writes and its response. -/
def initEnd (s : State) : State :=
  respond .ok none { s with eng := { s.eng with fsm := .ready, syncLost := false } }

/-- R87, R89: the body of INIT. -/
def initBody (s : State) : State :=
  match runOps (initOps s.cfg s.eng.bl) none (initBegin s) with
  | .done _ t => initEnd t
  | .busError t => raiseInitBusError t

/-- R87. -/
def execInit (s : State) : Host.Outcome State Fault Refusal := accept initBody s

/-- R93. -/
def execClear (s : State) : Host.Outcome State Fault Refusal :=
  accept (gated fun s => transfer clearByte .instruction s.cfg.tClear s) s

/-- R94. -/
def execHome (s : State) : Host.Outcome State Fault Refusal :=
  accept (gated fun s => transfer homeByte .instruction s.cfg.tHome s) s

/-- R95: the bounds check comes before any event. -/
def setcurBody (line col : Nat) (s : State) : State :=
  if s.cfg.lines ≤ line ∨ s.cfg.columns ≤ col then raiseOutOfBounds s
  else transfer (ddAddrByte (ddAddr s.cfg line col)) .instruction s.cfg.tCmd s

/-- R95. -/
def execSetcur (line col : Nat) (s : State) : Host.Outcome State Fault Refusal :=
  accept (gated (setcurBody line col)) s

/-- R96. -/
def execPutc (b : BitVec 8) (s : State) : Host.Outcome State Fault Refusal :=
  accept (gated fun s => transfer b .data s.cfg.tCmd s) s

/-- R82, R97 to R99: the mirror is committed, and the whole control byte is resent. -/
def sendCtrl (m : BitVec 3) (s : State) : State :=
  transfer (ctrlByte m) .instruction s.cfg.tCmd { s with eng := { s.eng with ctrl := m } }

/-- R97. -/
def execDisplay (on : Bool) (s : State) : Host.Outcome State Fault Refusal :=
  accept (gated fun s => sendCtrl (setCtrlD s.eng.ctrl on) s) s

/-- R98. -/
def execCursor (on : Bool) (s : State) : Host.Outcome State Fault Refusal :=
  accept (gated fun s => sendCtrl (setCtrlC s.eng.ctrl on) s) s

/-- R99. -/
def execBlink (on : Bool) (s : State) : Host.Outcome State Fault Refusal :=
  accept (gated fun s => sendCtrl (setCtrlB s.eng.ctrl on) s) s

/-- R82, R100: the mirror is committed before the transfer. -/
def entryBody (inc sh : Bool) (s : State) : State :=
  transfer (entryByte inc sh) .instruction s.cfg.tCmd
    { s with eng := { s.eng with entry := entryOf inc sh } }

/-- R100. -/
def execEntry (inc sh : Bool) (s : State) : Host.Outcome State Fault Refusal :=
  accept (gated (entryBody inc sh)) s

/-- R101. -/
def execShift (sc rl : Bool) (s : State) : Host.Outcome State Fault Refusal :=
  accept (gated fun s => transfer (shiftByte sc rl) .instruction s.cfg.tCmd s) s

/-- R80, R82: `bl_set(on)`, and the response. -/
def backlightBody (on : Bool) (s : State) : State :=
  perform [.write (backlightFrame s.cfg s.eng.shadow on)] { s with eng := { s.eng with bl := on } }

/-- R102. -/
def execBacklight (on : Bool) (s : State) : Host.Outcome State Fault Refusal :=
  accept (gated (backlightBody on)) s

/-- R83, R103: not gated, and no event. -/
def execGetbl (s : State) : Host.Outcome State Fault Refusal :=
  accept (fun s => respond .ok (some (b2u s.eng.bl)) s) s

/-- R104: not gated. -/
def execPread (s : State) : Host.Outcome State Fault Refusal := accept (perform [.read]) s

end Sys2Proof.Machine
end

