-- ==== Sys2Proof/Machine/Words.lean ====
section
/-! DEFINITION. The meanings of the opcode table's HD44780 words and bootstrap nibbles: what the controller
does when the word, or the nibble, reaches it (R113 to R126; log entry 8). The engine is not touched. -/

namespace Sys2Proof.Machine

/-- R117. -/
def execClearDisplay (s : State) : Host.Outcome State Fault Refusal :=
  .next (atController Observer.clearDisplay s)

/-- R119: 0x02 and 0x03 alike. -/
def execReturnHome (_x : BitVec 1) (s : State) : Host.Outcome State Fault Refusal :=
  .next (atController Observer.returnHome s)

/-- R120. -/
def execEntryModeSet (inc sh : Bool) (s : State) : Host.Outcome State Fault Refusal :=
  .next (atController (Observer.entryModeSet inc sh) s)

/-- R121. -/
def execDisplayControl (d c b : Bool) (s : State) : Host.Outcome State Fault Refusal :=
  .next (atController (Observer.displayControl d c b) s)

/-- R122. -/
def execCursorDisplayShift (sc rl : Bool) (_x : BitVec 2) (s : State) :
    Host.Outcome State Fault Refusal :=
  .next (atController (Observer.cursorDisplayShift sc rl) s)

/-- R123. -/
def execFunctionSet (dl n f : Bool) (_x : BitVec 2) (s : State) : Host.Outcome State Fault Refusal :=
  .next (atController (Observer.functionSet dl n f) s)

/-- R124. -/
def execSetCgramAddr (a : BitVec 6) (s : State) : Host.Outcome State Fault Refusal :=
  .next (atController (Observer.setCgramAddr a) s)

/-- R124. -/
def execSetDdramAddr (a : BitVec 7) (s : State) : Host.Outcome State Fault Refusal :=
  .next (atController (Observer.setDdramAddr a) s)

/-- R125. -/
def execWriteData (v : BitVec 8) (s : State) : Host.Outcome State Fault Refusal :=
  .next (atController (Observer.writeData v) s)

/-- R118: the observer fault UNDEF_INSTR. -/
def execNoInstruction00 (s : State) : Host.Outcome State Fault Refusal :=
  .next (atController Observer.noInstruction s)

/-- R111, R118: a read cycle is refused; the spec gives it no effect. -/
def execReadBusyAddr (_x : BitVec 8) (_s : State) : Host.Outcome State Fault Refusal :=
  .refused .readCycle

/-- R111, R118: a read cycle is refused; the spec gives it no effect. -/
def execReadData (_x : BitVec 8) (_s : State) : Host.Outcome State Fault Refusal :=
  .refused .readCycle

/-- R63, R113. -/
def execBootNibble3 (s : State) : Host.Outcome State Fault Refusal :=
  .next (atController (Observer.takeNibble 0x3#4 false) s)

/-- R63, R113. -/
def execBootNibble2 (s : State) : Host.Outcome State Fault Refusal :=
  .next (atController (Observer.takeNibble 0x2#4 false) s)

end Sys2Proof.Machine
end

