-- ==== Sys2Proof/Machine/Dispatch.lean ====
section
/-! DEFINITION. One arm for each constructor of Instr. -/

namespace Sys2Proof.Machine

def exec (i : Instr) (s : State) : Host.Outcome State Fault Refusal :=
  match i with
  | .clearDisplay => Sys2Proof.Machine.execClearDisplay s
  | .returnHome x => Sys2Proof.Machine.execReturnHome x s
  | .entryModeSet inc sh => Sys2Proof.Machine.execEntryModeSet inc sh s
  | .displayControl d c b => Sys2Proof.Machine.execDisplayControl d c b s
  | .cursorDisplayShift sc rl x => Sys2Proof.Machine.execCursorDisplayShift sc rl x s
  | .functionSet dl n f x => Sys2Proof.Machine.execFunctionSet dl n f x s
  | .setCgramAddr a => Sys2Proof.Machine.execSetCgramAddr a s
  | .setDdramAddr a => Sys2Proof.Machine.execSetDdramAddr a s
  | .writeData v => Sys2Proof.Machine.execWriteData v s
  | .noInstruction00 => Sys2Proof.Machine.execNoInstruction00 s
  | .readBusyAddr x => Sys2Proof.Machine.execReadBusyAddr x s
  | .readData x => Sys2Proof.Machine.execReadData x s
  | .bootNibble3 => Sys2Proof.Machine.execBootNibble3 s
  | .bootNibble2 => Sys2Proof.Machine.execBootNibble2 s
  | .init => Sys2Proof.Machine.execInit s
  | .clear => Sys2Proof.Machine.execClear s
  | .home => Sys2Proof.Machine.execHome s
  | .setcur line col => Sys2Proof.Machine.execSetcur line col s
  | .putc b => Sys2Proof.Machine.execPutc b s
  | .display on => Sys2Proof.Machine.execDisplay on s
  | .cursor on => Sys2Proof.Machine.execCursor on s
  | .blink on => Sys2Proof.Machine.execBlink on s
  | .entry inc sh => Sys2Proof.Machine.execEntry inc sh s
  | .shift sc rl => Sys2Proof.Machine.execShift sc rl s
  | .backlight on => Sys2Proof.Machine.execBacklight on s
  | .getbl => Sys2Proof.Machine.execGetbl s
  | .pread => Sys2Proof.Machine.execPread s

end Sys2Proof.Machine
end

