-- ==== Sys2Proof/Machine/Step.lean ====
section
/-! DEFINITION. One step: the next input is decoded and executed (R64, R68). With no input the engine is
idle and keeps its state (R147). Log entries 9 and 10. -/

namespace Sys2Proof.Machine

/-- The state without its next input. -/
def State.consume (s : State) : State := { s with inbox := s.inbox.tail }

/-- Runs a decoded input. DESIGN CHOICE (log entry 10): a blank or comment line presents no request and is
passed over. DESIGN CHOICE (log entry 12): what decodes to no instruction is refused as that, before exec
looks at the configuration and then at the port; the spec gives no order of the three refusals. -/
def runDecoded (d : Decoded) (s : State) : Host.Outcome State Fault Refusal :=
  match d with
  | .ok i => exec i s
  | .reject .noRequest => .next s
  | .reject e => .refused (.undecodable e)

/-- One step. -/
def step (s : State) : Host.Outcome State Fault Refusal :=
  match s.inbox with
  | [] => .next s
  | it :: _ => runDecoded it.decode s.consume

/-- The observer with a controller that is idle and takes what it receives (R115, R118). -/
def Observer.listening (o : Observer) : Observer := { o with busy := 0, fault := .none, refused := false }

/-- The state whose next step runs the input with bits `w` in the opcode table's numbering: the input is the
next one, and the controller, which is busy for OBS_T_PON after power-on, listens (log entry 10). Bits that
are no input of the table's become a line the decoder rejects. -/
def State.withFetchWord (s : State) (nbits w : Nat) : State :=
  { s with inbox := (itemOfTable nbits w).getD (.line ['?']) :: s.inbox, obs := s.obs.listening }

end Sys2Proof.Machine
end

