-- ==== Sys2Proof/Machine/Facade.lean ====
section
/-! DEFINITION. The facade's pseudo-instructions (R72): the requests each call expands to. The engine sees
only the requests. `marquee_text` is not expanded (R72). -/

namespace Sys2Proof.Machine

/-- R72: the facade calls that expand to requests. -/
inductive FacadeCall where
  | clear
  | cursorOn
  | cursorOff
  | blinkOn
  | blinkOff
  | backlightOn
  | backlightOff
  /-- `write_line(text, l)`, the text as the bytes the facade maps its characters to. -/
  | writeLine (text : List Byte) (line : Nat)
  deriving DecidableEq, Repr

/-- R72: a piece of text written at the cursor. -/
def putText (text : List Byte) : List Instr := text.map .putc

/-- R72: the SETCUR that the facade issues before a piece, if it issues one. -/
def setcurAt : Option (Nat × Nat) → List Instr
  | some (l, c) => [.setcur l c]
  | none => []

/-- DESIGN CHOICE (log entry 17): the pieces, from the `k`-th on, of a text that wraps: COLUMNS bytes each,
each at a free place. `fuel` bounds their number. -/
def wrapPieces (columns line : Nat) (text : List Byte) : Nat → Nat → List Byte → List Instr
  | 0, _, _ => []
  | fuel + 1, k, rest =>
    if rest.isEmpty then []
    else setcurAt (Config.freeWrap columns line text k) ++ putText (rest.take columns)
      ++ wrapPieces columns line text fuel (k + 1) (rest.drop columns)

/-- R72: what follows the first COLUMNS bytes of a text: nothing where it fits or the policy truncates
(log entry 17), and else the pieces that wrap. -/
def afterFirstLine (policy : WriteLinePolicy) (columns line : Nat) (text : List Byte) : List Instr :=
  match policy with
  | .truncate => []
  | .wrap => wrapPieces columns line text text.length 1 (text.drop columns)

/-- R72: `write_line(text, l)`. It begins with `SETCUR l, 0`, whatever the length of the text. -/
def lineRequests (policy : WriteLinePolicy) (columns : Nat) (text : List Byte) (line : Nat) : List Instr :=
  .setcur line 0 :: (putText (text.take columns) ++ afterFirstLine policy columns line text)

/-- R72: the expansion. -/
def FacadeCall.expand (c : Config) : FacadeCall → List Instr
  | .clear => [.clear]
  | .cursorOn => [.cursor true]
  | .cursorOff => [.cursor false]
  | .blinkOn => [.blink true]
  | .blinkOff => [.blink false]
  | .backlightOn => [.backlight true]
  | .backlightOff => [.backlight false]
  | .writeLine text l => lineRequests c.writeLinePolicy c.columns text l

end Sys2Proof.Machine
end

