-- ==== Sys2Proof/Safety.lean ====
section
/-! DEFINITION. The terms the statements use: what a request's events leave behind, which states a request
can be accepted in, and the two invariants, the machine's and that of an engine in step with its display. -/

namespace Sys2Proof.Machine

/-! ### The transport's answers ahead -/

/-- The transport after `n` answers. -/
def Transport.skip : Nat → Transport → Transport
  | 0, b => b
  | n + 1, b => Transport.skip n b.rest

/-- The answer to the transaction `k` ahead. -/
def Transport.answerAt (b : Transport) (k : Nat) : Answer := (b.skip k).answer

/-- The next `n` transactions succeed. -/
abbrev State.BusOk (s : State) (n : Nat) : Prop := ∀ k, k < n → (s.bus.answerAt k).ok = true

/-- The next `k` transactions succeed, and the one after them fails. -/
abbrev State.BusFailsAt (s : State) (k : Nat) : Prop := s.BusOk k ∧ (s.bus.answerAt k).ok = false

/-- R8, R17: the port accepts a request: the configuration is well formed and no request is in progress. -/
abbrev State.Accepts (s : State) : Prop := s.cfg.wf = true ∧ s.eng.busy = false

/-! ### Event lists -/

/-- Successful writes of frames, in order (R39). -/
def writeEvents (c : Config) (fs : List Frame) : List Event := fs.map fun f => .busWrite c.i2cAddr f true

/-- R78: the events of a byte transfer that succeeds. -/
def transferEvents (c : Config) (bl : Bool) (v : Byte) (m : Mode) (t : Nat) : List Event :=
  writeEvents c (encodeFrames c v m bl) ++ [.wait t]

/-- R79: the events of a bootstrap nibble that succeeds. -/
def bootEvents (c : Config) (bl : Bool) (n : Nibble) (t : Nat) : List Event :=
  writeEvents c [frame c n false bl true, frame c n false bl false] ++ [.wait t]

/-- R87: the events of INIT's steps 0 and 1. -/
def bootstrapEvents (c : Config) (bl : Bool) : List Event :=
  [.wait c.tPowerOn] ++ bootEvents c bl 0x3#4 c.tBoot1 ++ bootEvents c bl 0x3#4 c.tBoot2
    ++ bootEvents c bl 0x3#4 c.tBoot3 ++ bootEvents c bl 0x2#4 c.tCmd

/-- R87, R88: the 38 events of an INIT that succeeds, with the instruction bytes of R21 and R59. -/
def initEvents (c : Config) (bl : Bool) : List Event :=
  bootstrapEvents c bl
    ++ transferEvents c bl (0x20#8 ||| (b2u (1 < c.lines) <<< 3) ||| (b2u (c.font = .f5x10) <<< 2))
        .instruction c.tCmd
    ++ transferEvents c bl 0x08#8 .instruction c.tCmd
    ++ transferEvents c bl 0x01#8 .instruction c.tClear
    ++ transferEvents c bl 0x06#8 .instruction c.tCmd
    ++ transferEvents c bl 0x0C#8 .instruction c.tCmd

/-- R135: a list of events cut at its `k`-th write, which fails. -/
def failAt : Nat → List Event → List Event
  | _, [] => []
  | 0, .busWrite a f _ :: _ => [.busWrite a f false]
  | k + 1, .busWrite a f ok :: es => .busWrite a f ok :: failAt k es
  | k, .busRead a r :: es => .busRead a r :: failAt k es
  | k, .wait t :: es => .wait t :: failAt k es

/-- R22: `shadow` after a list of events: the last frame written with success. -/
def shadowAfter : Frame → List Event → Frame
  | f, [] => f
  | _, .busWrite _ g true :: es => shadowAfter g es
  | f, .busWrite _ _ false :: es => shadowAfter f es
  | f, .busRead _ _ :: es => shadowAfter f es
  | f, .wait _ :: es => shadowAfter f es

/-- R39, R40: how many bus transactions a list of events holds. -/
def transactions : List Event → Nat
  | [] => 0
  | .busWrite _ _ _ :: es => transactions es + 1
  | .busRead _ _ :: es => transactions es + 1
  | .wait _ :: es => transactions es

/-- The observer after a list of events. -/
def Observer.takeAll (c : Config) : List Event → Observer → Observer
  | [], o => o
  | e :: es, o => Observer.takeAll c es (o.take c e)

/-- The state `s` after a request has emitted `evs` and responded: `eng` is the engine with its other
writes, to which `shadow`, `seq` and `busy` are added (R22, R136). The observer has taken the events, the
transport has given one answer for each transaction, and nothing else differs. -/
def State.settled (s : State) (eng : Engine) (evs : List Event) (code : Code) (data : Option Byte) : State :=
  { s with
    eng := { eng with shadow := shadowAfter s.eng.shadow evs, seq := 0, busy := false }
    obs := s.obs.takeAll s.cfg evs
    bus := s.bus.skip (transactions evs)
    trace := s.trace ++ evs.map .event ++ [.response code data] }

/-! ### What each byte request sends -/

/-- R19: three flags as the number of `ctrl`. -/
def flagsNat (d c b : Bool) : Nat := 4 * d.toNat + 2 * c.toNat + b.toNat

/-- R65, R82, R151: what a request that sends one byte transfer does before its first write, and what it
sends: the engine with the mirrors committed, the byte, the mode, and the settle delay. Nothing for another
instruction, and nothing for a SETCUR out of bounds (R95). Written from R58 and R65 in numbers, not from the
meanings. -/
def byteTransfer (s : State) : Instr → Option (Engine × Byte × Mode × Nat)
  | .clear => some (s.eng, 0x01#8, .instruction, s.cfg.tClear)
  | .home => some (s.eng, 0x02#8, .instruction, s.cfg.tHome)
  | .setcur l c =>
    if l < s.cfg.lines ∧ c < s.cfg.columns then
      some (s.eng, BitVec.ofNat 8 (0x80 + (s.cfg.lineStart.getD l 0#7).toNat + c), .instruction, s.cfg.tCmd)
    else none
  | .putc b => some (s.eng, b, .data, s.cfg.tCmd)
  | .display on =>
    let k := flagsNat on (ctrlC s.eng.ctrl) (ctrlB s.eng.ctrl)
    some ({ s.eng with ctrl := BitVec.ofNat 3 k }, BitVec.ofNat 8 (0x08 + k), .instruction, s.cfg.tCmd)
  | .cursor on =>
    let k := flagsNat (ctrlD s.eng.ctrl) on (ctrlB s.eng.ctrl)
    some ({ s.eng with ctrl := BitVec.ofNat 3 k }, BitVec.ofNat 8 (0x08 + k), .instruction, s.cfg.tCmd)
  | .blink on =>
    let k := flagsNat (ctrlD s.eng.ctrl) (ctrlC s.eng.ctrl) on
    some ({ s.eng with ctrl := BitVec.ofNat 3 k }, BitVec.ofNat 8 (0x08 + k), .instruction, s.cfg.tCmd)
  | .entry inc sh =>
    let k := 2 * inc.toNat + sh.toNat
    some ({ s.eng with entry := BitVec.ofNat 2 k }, BitVec.ofNat 8 (0x04 + k), .instruction, s.cfg.tCmd)
  | .shift sc rl =>
    some (s.eng, BitVec.ofNat 8 (0x10 + 8 * sc.toNat + 4 * rl.toNat), .instruction, s.cfg.tCmd)
  | .init | .backlight _ | .getbl | .pread | .clearDisplay | .returnHome _ | .entryModeSet _ _
  | .displayControl _ _ _ | .cursorDisplayShift _ _ _ | .functionSet _ _ _ _ | .setCgramAddr _
  | .setDdramAddr _ | .writeData _ | .noInstruction00 | .readBusyAddr _ | .readData _ | .bootNibble3
  | .bootNibble2 => none

/-! ### Power-on -/

/-- R32, R127: a power-on state of configuration `c`: the engine at its reset values, the latch, the busy
time and the fault as R127 states them, and every register of the controller free. -/
abbrev State.PoweredOn (c : Config) (s : State) : Prop :=
  s.cfg = c ∧ s.eng = Engine.reset c ∧ s.obs.latch = 0xFF#8 ∧ s.obs.busy = c.obsTPon ∧
    s.obs.fault = .none ∧ s.obs.refused = false

/-! ### The machine's invariant -/

/-- R15, R16, R17: no request is in progress. -/
abbrev State.Idle (s : State) : Prop := s.eng.busy = false ∧ s.eng.seq = 0 ∧ s.eng.fsm ≠ .initializing

/-- R31: `shadow` has RW = 0, and E = 0 while no bus failure is outstanding. -/
abbrev State.ShadowClean (s : State) : Prop :=
  line s.eng.shadow s.cfg.pinmap.rw = false ∧
    (s.eng.syncLost = false → line s.eng.shadow s.cfg.pinmap.e = false)

/-- The controller's memories are in canonical form, with addresses of 7 and of 6 bits (R107). -/
abbrev State.MemoriesWf (s : State) : Prop :=
  s.obs.ddram.wf = true ∧ s.obs.ddram.inRange 128 = true ∧ s.obs.cgram.wf = true ∧
    s.obs.cgram.inRange 64 = true

/-- R130: while the engine is READY with no bus failure outstanding, the expander's latch holds `shadow`. -/
abbrev State.LatchTracks (s : State) : Prop :=
  s.obs.running = true → s.eng.fsm = .ready → s.eng.syncLost = false → s.obs.latch = s.eng.shadow

/-- The machine's invariant. -/
abbrev State.Inv (s : State) : Prop :=
  s.cfg.wf = true ∧ s.Idle ∧ s.ShadowClean ∧ s.MemoriesWf ∧ s.LatchTracks

/-! ### An engine in step with its display -/

/-- R43, R112, R115: the controller takes a high nibble next, and is not busy. -/
abbrev Observer.Aligned (o : Observer) : Prop := o.running = true ∧ o.ifmode = .fourHi ∧ o.busy = 0

/-- R19, R20, R21, R128: the controller's registers agree with the engine's mirrors; of the entry
direction, only that an incrementing mirror means an incrementing controller. -/
abbrev State.MirrorsAgree (s : State) : Prop :=
  s.obs.dl = false ∧ s.obs.n = fsN s.cfg ∧ s.obs.f = fsF s.cfg ∧ s.obs.d = ctrlD s.eng.ctrl ∧
    s.obs.c = ctrlC s.eng.ctrl ∧ s.obs.b = ctrlB s.eng.ctrl ∧ s.obs.s = entryS s.eng.entry ∧
    (entryId s.eng.entry = true → s.obs.id = true) ∧ s.obs.space = .dd ∧
    validDdram s.obs.n s.obs.ac.toNat = true

/-- A READY engine with no bus failure outstanding, in step with its display. -/
abbrev State.InStep (s : State) : Prop :=
  s.eng.fsm = .ready ∧ s.eng.syncLost = false ∧ s.obs.Aligned ∧ s.obs.latch = s.eng.shadow ∧ s.MirrorsAgree

end Sys2Proof.Machine
end

