-- ==== Sys2Proof/Certificates/Slice0/Obligations.lean ====
section
/-! DEFINITION. The statements for the provers. Each docstring names the rules it formalises. -/

open Sys2Proof Sys2Proof.Machine

/-! ### Encoding and stepping -/

/-- R58, R60, R63, R71: words, nibbles and lines written out from the spec's tables decode to their
instructions. -/
def Obligations.WrittenOutInputsDecode : Prop :=
  decodeWord 0b0000000001#10 = .clearDisplay ∧ decodeWord 0b0000000011#10 = .returnHome 1#1 ∧
  decodeWord 0b0000000110#10 = .entryModeSet true false ∧
  decodeWord 0b0000001101#10 = .displayControl true false true ∧
  decodeWord 0b0000011000#10 = .cursorDisplayShift true false 0#2 ∧
  decodeWord 0b0000101000#10 = .functionSet false true false 0#2 ∧
  decodeWord 0b0001000001#10 = .setCgramAddr 1#6 ∧ decodeWord 0b0011000101#10 = .setDdramAddr 0x45#7 ∧
  decodeWord 0b1001000001#10 = .writeData 0x41#8 ∧ decodeWord 0b0000000000#10 = .noInstruction00 ∧
  decodeWord 0b0110000000#10 = .readBusyAddr 0x80#8 ∧ decodeWord 0b1100000001#10 = .readData 1#8 ∧
  decodeNibble 0b000011#6 = .ok .bootNibble3 ∧ decodeNibble 0b000010#6 = .ok .bootNibble2 ∧
  decodeLine ['I', 'N', 'I', 'T'] = .ok .init ∧
  decodeLine ['S', 'E', 'T', 'C', 'U', 'R', ' ', '1', ',', ' ', '0', 'x', 'F', ' ', ';', ' ', 'e']
    = .ok (.setcur 1 15) ∧
  decodeLine ['P', 'U', 'T', 'C', ' ', '\'', 'A', '\''] = .ok (.putc 0x41#8) ∧
  decodeLine ['S', 'H', 'I', 'F', 'T', ' ', '1', ',', ' ', '0'] = .ok (.shift true false)

/-- R58, R63, R64, R71: decoding what the encoder writes gives the instruction back, for every instruction
and every operand. -/
def Obligations.DecodeOfEncodeIsIdentity : Prop := ∀ i : Instr, (encode i).decode = .ok i

/-- R58, R60: every word has one meaning, and no bit of it is dropped; and with RS = RW = 0 the table's
match and mask choose the instruction. -/
def Obligations.EveryWordHasOneMeaning : Prop :=
  (∀ w : BitVec 10, encode (decodeWord w) = .word w) ∧
  ∀ v : BitVec 8,
    (v &&& 0xFF#8 = 0x01#8 → decodeWord (0b00#2 ++ v) = .clearDisplay) ∧
    (v &&& 0xFE#8 = 0x02#8 → decodeWord (0b00#2 ++ v) = .returnHome (v.extractLsb' 0 1)) ∧
    (v &&& 0xFC#8 = 0x04#8 → decodeWord (0b00#2 ++ v) = .entryModeSet (v.getLsbD 1) (v.getLsbD 0)) ∧
    (v &&& 0xF8#8 = 0x08#8 →
      decodeWord (0b00#2 ++ v) = .displayControl (v.getLsbD 2) (v.getLsbD 1) (v.getLsbD 0)) ∧
    (v &&& 0xF0#8 = 0x10#8 →
      decodeWord (0b00#2 ++ v) = .cursorDisplayShift (v.getLsbD 3) (v.getLsbD 2) (v.extractLsb' 0 2)) ∧
    (v &&& 0xE0#8 = 0x20#8 → decodeWord (0b00#2 ++ v)
      = .functionSet (v.getLsbD 4) (v.getLsbD 3) (v.getLsbD 2) (v.extractLsb' 0 2)) ∧
    (v &&& 0xC0#8 = 0x40#8 → decodeWord (0b00#2 ++ v) = .setCgramAddr (v.extractLsb' 0 6)) ∧
    (v &&& 0x80#8 = 0x80#8 → decodeWord (0b00#2 ++ v) = .setDdramAddr (v.extractLsb' 0 7)) ∧
    (v &&& 0xFF#8 = 0x00#8 → decodeWord (0b00#2 ++ v) = .noInstruction00) ∧
    decodeWord (0b10#2 ++ v) = .writeData v

/-- A step runs the decoded input: it is exec of the instruction the next input decodes to, at the state
without that input. With no input the engine is idle and keeps its state (R147). That inputs wait in a list,
and that a blank or comment line is passed over, are the model's choices (log entry 10): R71 says only that
`;` starts a comment. -/
def Obligations.StepRunsTheDecodedInput : Prop :=
  (∀ (s : State) (it : Item) (rest : List Item) (i : Instr),
    s.inbox = it :: rest → it.decode = .ok i → step s = exec i { s with inbox := rest }) ∧
  (∀ s : State, s.inbox = [] → step s = .next s) ∧
  (∀ (s : State) (cs : List Char) (rest : List Item),
    s.inbox = .line cs :: rest → decodeLine cs = .reject .noRequest → step s = .next { s with inbox := rest })

/-- R68: a value on the request port that is none of the 13 requests is refused by name, and so is any other
input that decodes to no instruction. That inputs wait in a list (log entry 10), and that this refusal comes
before those of the configuration and of the port (log entry 12), are the model's choices. -/
def Obligations.OtherInputsAreRefusedByName : Prop :=
  (∀ (s : State) (i : Instr) (rest : List Item), s.inbox = .request i :: rest → i.isRequest = false →
    step s = .refused (.undecodable .notARequest)) ∧
  (∀ (s : State) (i : Instr) (rest : List Item), s.inbox = .request i :: rest → i.isRequest = true →
    step s = exec i { s with inbox := rest }) ∧
  (∀ (s : State) (it : Item) (rest : List Item) (e : DecodeError), s.inbox = it :: rest →
    it.decode = .reject e → e ≠ .noRequest → step s = .refused (.undecodable e))

/-! ### Configuration -/

/-- R8, R9, R37: WF_CFG is the conjunction of its six named checks, and no request has a meaning under a
configuration that fails it. -/
def Obligations.ConfigWellFormedIffChecks : Prop :=
  (∀ c : Config, c.wf = true ↔
    ((c.lines = 1 ∧ 1 ≤ c.columns ∧ c.columns ≤ 80) ∨ (c.lines = 2 ∧ 1 ≤ c.columns ∧ c.columns ≤ 40) ∨
      (c.lines = 4 ∧ 1 ≤ c.columns ∧ c.columns ≤ 20)) ∧
    (c.font = .f5x8 ∨ c.lines = 1) ∧
    (c.pinmap.rs :: c.pinmap.rw :: c.pinmap.e :: c.pinmap.bl :: c.pinmap.d4 :: c.pinmap.d5 :: c.pinmap.d6
      :: [c.pinmap.d7]).Nodup ∧
    c.lineStart.length = c.lines ∧
    (∀ a ∈ c.lineStart, ∀ k, k < c.columns →
      (c.lines = 1 ∧ a.toNat + k ≤ 0x4F) ∨
      (1 < c.lines ∧ (a.toNat + k ≤ 0x27 ∨ (0x40 ≤ a.toNat + k ∧ a.toNat + k ≤ 0x67)))) ∧
    40000 ≤ c.tPowerOn ∧ 4100 ≤ c.tBoot1 ∧ 100 ≤ c.tBoot2 ∧ 100 ≤ c.tBoot3 ∧ 37 ≤ c.tCmd ∧
    1520 ≤ c.tClear ∧ 1520 ≤ c.tHome) ∧
  ∀ (i : Instr) (s : State), i.isRequest = true → s.cfg.wf = false → exec i s = .refused .illFormedConfig

/-- R17: while a request is in progress the port accepts none. -/
def Obligations.PortTakesOneRequestAtATime : Prop :=
  ∀ (i : Instr) (s : State), i.isRequest = true → s.cfg.wf = true → s.eng.busy = true →
    exec i s = .refused .portBusy

/-! ### Frames -/

/-- R55, R56, R74: in every frame the builder makes, each line carries its signal, whatever the pin map. -/
def Obligations.FrameLinesCarryTheirSignals : Prop :=
  ∀ (c : Config) (n : Nibble) (rs blv e : Bool), c.wf = true →
    line (frame c n rs blv e) c.pinmap.d4 = n.getLsbD 0 ∧ line (frame c n rs blv e) c.pinmap.d5 = n.getLsbD 1 ∧
    line (frame c n rs blv e) c.pinmap.d6 = n.getLsbD 2 ∧ line (frame c n rs blv e) c.pinmap.d7 = n.getLsbD 3 ∧
    line (frame c n rs blv e) c.pinmap.rs = rs ∧ line (frame c n rs blv e) c.pinmap.rw = false ∧
    line (frame c n rs blv e) c.pinmap.e = e ∧
    line (frame c n rs blv e) c.pinmap.bl = (if c.blActiveHigh then blv else !blv)

/-- R77: the encoder laws. -/
def Obligations.EncoderLaws : Prop :=
  ∀ (c : Config) (v : Byte) (m : Mode) (blv : Bool), c.wf = true →
    ∃ f0 f1 f2 f3, encodeFrames c v m blv = [f0, f1, f2, f3] ∧
      dataNibble c f0 = v.extractLsb' 4 4 ∧ dataNibble c f1 = v.extractLsb' 4 4 ∧
      dataNibble c f2 = v.extractLsb' 0 4 ∧ dataNibble c f3 = v.extractLsb' 0 4 ∧
      (∀ f ∈ [f0, f1, f2, f3], line f c.pinmap.bl = blBit c blv ∧ line f c.pinmap.rs = rsOf m ∧
        line f c.pinmap.rw = false) ∧
      line f0 c.pinmap.e = true ∧ line f1 c.pinmap.e = false ∧ line f2 c.pinmap.e = true ∧
      line f3 c.pinmap.e = false

/-! ### The requests that complete -/

/-- R93: CLEAR sends the instruction 0x01, waits T_CLEAR and responds OK. -/
def Obligations.ClearResult : Prop :=
  ∀ s : State, s.Accepts → s.eng.fsm = .ready → s.BusOk 4 →
    exec .clear s = .next (s.settled s.eng
      (transferEvents s.cfg s.eng.bl 0x01#8 .instruction s.cfg.tClear) .ok none)

/-- R94: HOME sends the instruction 0x02, waits T_HOME and responds OK. -/
def Obligations.HomeResult : Prop :=
  ∀ s : State, s.Accepts → s.eng.fsm = .ready → s.BusOk 4 →
    exec .home s = .next (s.settled s.eng
      (transferEvents s.cfg s.eng.bl 0x02#8 .instruction s.cfg.tHome) .ok none)

/-- R38, R45, R95: SETCUR inside the bounds sends 0x80 plus the line's start plus the column, an address
that exists. -/
def Obligations.SetcurResult : Prop :=
  ∀ (s : State) (l c : Nat), s.Accepts → s.eng.fsm = .ready → s.BusOk 4 → l < s.cfg.lines →
    c < s.cfg.columns →
    ∃ a : DdAddr, s.cfg.lineStart[l]? = some a ∧ validDdram (1 < s.cfg.lines) (a.toNat + c) = true ∧
      exec (.setcur l c) s = .next (s.settled s.eng
        (transferEvents s.cfg s.eng.bl (BitVec.ofNat 8 (0x80 + a.toNat + c)) .instruction s.cfg.tCmd) .ok none)

/-- R96: PUTC sends the byte unchanged in Data mode. -/
def Obligations.PutcResult : Prop :=
  ∀ (s : State) (b : Byte), s.Accepts → s.eng.fsm = .ready → s.BusOk 4 →
    exec (.putc b) s = .next (s.settled s.eng (transferEvents s.cfg s.eng.bl b .data s.cfg.tCmd) .ok none)

/-- R97: DISPLAY writes `ctrl.D` and resends the whole control byte. -/
def Obligations.DisplayResult : Prop :=
  ∀ (s : State) (on : Bool), s.Accepts → s.eng.fsm = .ready → s.BusOk 4 →
    ∃ m : BitVec 3, m.getLsbD 2 = on ∧ m.getLsbD 1 = s.eng.ctrl.getLsbD 1 ∧ m.getLsbD 0 = s.eng.ctrl.getLsbD 0 ∧
      exec (.display on) s = .next (s.settled { s.eng with ctrl := m }
        (transferEvents s.cfg s.eng.bl (0x08#8 ||| m.setWidth 8) .instruction s.cfg.tCmd) .ok none)

/-- R98: CURSOR writes `ctrl.C` and resends the whole control byte. -/
def Obligations.CursorResult : Prop :=
  ∀ (s : State) (on : Bool), s.Accepts → s.eng.fsm = .ready → s.BusOk 4 →
    ∃ m : BitVec 3, m.getLsbD 2 = s.eng.ctrl.getLsbD 2 ∧ m.getLsbD 1 = on ∧ m.getLsbD 0 = s.eng.ctrl.getLsbD 0 ∧
      exec (.cursor on) s = .next (s.settled { s.eng with ctrl := m }
        (transferEvents s.cfg s.eng.bl (0x08#8 ||| m.setWidth 8) .instruction s.cfg.tCmd) .ok none)

/-- R99: BLINK writes `ctrl.B` and resends the whole control byte. -/
def Obligations.BlinkResult : Prop :=
  ∀ (s : State) (on : Bool), s.Accepts → s.eng.fsm = .ready → s.BusOk 4 →
    ∃ m : BitVec 3, m.getLsbD 2 = s.eng.ctrl.getLsbD 2 ∧ m.getLsbD 1 = s.eng.ctrl.getLsbD 1 ∧ m.getLsbD 0 = on ∧
      exec (.blink on) s = .next (s.settled { s.eng with ctrl := m }
        (transferEvents s.cfg s.eng.bl (0x08#8 ||| m.setWidth 8) .instruction s.cfg.tCmd) .ok none)

/-- R100: ENTRY writes the entry mirror and sends 0x04 with its two bits. -/
def Obligations.EntryResult : Prop :=
  ∀ (s : State) (inc sh : Bool), s.Accepts → s.eng.fsm = .ready → s.BusOk 4 →
    ∃ m : BitVec 2, m.getLsbD 1 = inc ∧ m.getLsbD 0 = sh ∧
      exec (.entry inc sh) s = .next (s.settled { s.eng with entry := m }
        (transferEvents s.cfg s.eng.bl (0x04#8 ||| m.setWidth 8) .instruction s.cfg.tCmd) .ok none)

/-- R101: SHIFT sends 0x10 with S/C in bit 3 and R/L in bit 2, and writes no mirror. -/
def Obligations.ShiftResult : Prop :=
  ∀ (s : State) (sc rl : Bool), s.Accepts → s.eng.fsm = .ready → s.BusOk 4 →
    exec (.shift sc rl) s = .next (s.settled s.eng
      (transferEvents s.cfg s.eng.bl (BitVec.ofNat 8 (0x10 + 8 * sc.toNat + 4 * rl.toNat)) .instruction
        s.cfg.tCmd) .ok none)

/-- R80, R82, R102: BACKLIGHT writes `bl` and then one frame, `shadow` with only its BL bit replaced. The
write may fail: `bl` keeps the new value. -/
def Obligations.BacklightResult : Prop :=
  ∀ (s : State) (on : Bool), s.Accepts → s.eng.fsm = .ready →
    ∃ f : Frame, line f s.cfg.pinmap.bl = (if s.cfg.blActiveHigh then on else !on) ∧
      (∀ i : Fin 8, i ≠ s.cfg.pinmap.bl → line f i = line s.eng.shadow i) ∧
      (s.BusOk 1 → exec (.backlight on) s = .next (s.settled { s.eng with bl := on }
        [.busWrite s.cfg.i2cAddr f true] .ok none)) ∧
      (s.BusFailsAt 0 → exec (.backlight on) s = .next (s.settled { s.eng with bl := on, syncLost := true }
        [.busWrite s.cfg.i2cAddr f false] .busError none))

/-- R83, R103: GETBL is not gated, emits no event, and responds with the backlight cache. -/
def Obligations.GetblResult : Prop :=
  ∀ s : State, s.Accepts →
    exec .getbl s = .next (s.settled s.eng [] .ok (some (if s.eng.bl then 1#8 else 0#8)))

/-- R40, R104: PREAD is not gated. It responds with the byte the transport returns and writes no `shadow`; a
failed read is a BUS_ERROR. -/
def Obligations.PreadResult : Prop :=
  ∀ s : State, s.Accepts →
    (s.BusOk 1 → exec .pread s = .next (s.settled s.eng
      [.busRead s.cfg.i2cAddr (some (s.bus.answerAt 0).data)] .ok (some (s.bus.answerAt 0).data))) ∧
    (s.BusFailsAt 0 → exec .pread s = .next (s.settled { s.eng with syncLost := true }
      [.busRead s.cfg.i2cAddr none] .busError none))

/-- R33, R87, R88: INIT emits its 38 events in their fixed order and leaves the engine READY with the
default mirrors, `bl` unchanged, and the last display-on frame in `shadow`. -/
def Obligations.InitResult : Prop :=
  ∀ s : State, s.Accepts → s.BusOk 28 →
    (initEvents s.cfg s.eng.bl).length = 38 ∧
    shadowAfter s.eng.shadow (initEvents s.cfg s.eng.bl) = frame s.cfg 0xC#4 false s.eng.bl false ∧
    exec .init s = .next (s.settled
      { s.eng with fsm := .ready, ctrl := 0b100#3, entry := 0b10#2, syncLost := false }
      (initEvents s.cfg s.eng.bl) .ok none)

/-! ### Errors -/

/-- R89: INIT whose `k`-th write fails stops there, with `fsm` UNINIT and `sync_lost` set. Of the observer
only the latch, the fault and a refusal are as its events leave them (of the last two, the model's choice, log
entry 26): the controller is indeterminate, so nothing is said of its fields. -/
def Obligations.InitBusErrorResult : Prop :=
  ∀ (s : State) (k : Nat), s.Accepts → k < 28 → s.BusFailsAt k →
    let t := s.settled
      { s.eng with fsm := .uninit, ctrl := 0b100#3, entry := 0b10#2, syncLost := true }
      (failAt k (initEvents s.cfg s.eng.bl)) .busError none
    ∃ o : Observer, o.latch = t.obs.latch ∧ o.fault = t.obs.fault ∧ o.refused = t.obs.refused ∧
      exec .init s = .next { t with obs := o }

/-- R78, R82, R134, R135: a byte request whose `k`-th write fails stops there: the earlier frames stay
written, the mirrors stay committed, `fsm` is unchanged and `sync_lost` is set. -/
def Obligations.TransferBusErrorResult : Prop :=
  ∀ (s : State) (i : Instr) (eng : Engine) (v : Byte) (m : Mode) (t k : Nat), s.Accepts →
    s.eng.fsm = .ready → byteTransfer s i = some (eng, v, m, t) → k < 4 → s.BusFailsAt k →
    exec i s = .next (s.settled { eng with syncLost := true }
      (failAt k (transferEvents s.cfg s.eng.bl v m t)) .busError none)

/-- R92, R132: a gated request that finds `fsm` not READY emits no event, changes no register and responds
NOT_INITIALIZED. -/
def Obligations.GateFailsFast : Prop :=
  ∀ (s : State) (i : Instr), s.Accepts → i.isGated = true → s.eng.fsm ≠ .ready →
    exec i s = .next (s.settled s.eng [] .notInitialized none)

/-- R133, R137: a SETCUR out of bounds that passes the gate emits no event, changes no register and responds
OUT_OF_BOUNDS, whatever the transport would answer. -/
def Obligations.SetcurOutOfBounds : Prop :=
  ∀ (s : State) (l c : Nat), s.Accepts → s.eng.fsm = .ready → s.cfg.lines ≤ l ∨ s.cfg.columns ≤ c →
    exec (.setcur l c) s = .next (s.settled s.eng [] .outOfBounds none)

/-- R66, R136: every request that is accepted appends its events and then exactly one response to the trace,
and data comes with an OK of GETBL or PREAD and with nothing else. -/
def Obligations.OneResponseEndsEachRequest : Prop :=
  ∀ (s : State) (i : Instr), s.Accepts → i.isRequest = true →
    ∃ (t : State) (evs : List Event) (code : Code) (data : Option Byte), exec i s = .next t ∧
      t.trace = s.trace ++ evs.map .event ++ [.response code data] ∧ t.eng.seq = 0 ∧ t.eng.busy = false ∧
      (data.isSome = true ↔ code = .ok ∧ (i = .getbl ∨ i = .pread))

/-- R67: on success every request emits its fixed number of writes, reads and waits. -/
def Obligations.RequestLengths : Prop :=
  ∀ (s t : State) (i : Instr) (data : Option Byte) (evs : List Event), i.isRequest = true →
    exec i s = .next t → t.trace = s.trace ++ evs.map .event ++ [.response .ok data] →
    let writes := evs.countP fun e => match e with | .busWrite _ _ _ => true | _ => false
    let reads := evs.countP fun e => match e with | .busRead _ _ => true | _ => false
    let waits := evs.countP fun e => match e with | .wait _ => true | _ => false
    (writes, reads, waits) = match i with
      | .init => (28, 0, 10)
      | .backlight _ => (1, 0, 0)
      | .getbl => (0, 0, 0)
      | .pread => (0, 1, 0)
      | _ => (4, 0, 1)

/-! ### Whole-machine rules -/

/-- R85: how `fsm` moves. INIT ends READY when it responds OK and UNINIT on a BUS_ERROR, and nothing else
moves it. -/
def Obligations.FsmMovesOnlyByInit : Prop :=
  ∀ (s t : State) (i : Instr), exec i s = .next t →
    (i ≠ .init → t.eng.fsm = s.eng.fsm) ∧
    (i = .init →
      (t.eng.fsm = .ready ∧ t.eng.syncLost = false ∧ ∃ evs, t.trace = s.trace ++ evs ++ [.response .ok none]) ∨
      (t.eng.fsm = .uninit ∧ t.eng.syncLost = true ∧
        ∃ evs, t.trace = s.trace ++ evs ++ [.response .busError none]))

/-- R18, R27, R28: the access table's columns for writes, over all instructions: what no request but those
named writes, and that `sync_lost` is set only with a BUS_ERROR. That a word or nibble at the controller
touches no engine register at all is the model's reading of those rows (log entry 8). -/
def Obligations.RegistersWrittenOnlyAsTabled : Prop :=
  ∀ (s t : State) (i : Instr), exec i s = .next t →
    (i.isRequest = false → t.eng = s.eng ∧ t.trace = s.trace ∧ t.bus = s.bus) ∧
    (i ≠ .init → t.eng.fsm = s.eng.fsm) ∧
    ((∀ on, i ≠ .backlight on) → t.eng.bl = s.eng.bl) ∧
    (i ≠ .init → (∀ on, i ≠ .display on) → (∀ on, i ≠ .cursor on) → (∀ on, i ≠ .blink on) →
      t.eng.ctrl = s.eng.ctrl) ∧
    (i ≠ .init → (∀ inc sh, i ≠ .entry inc sh) → t.eng.entry = s.eng.entry) ∧
    (i = .getbl ∨ i = .pread → t.eng.shadow = s.eng.shadow) ∧
    (i = .getbl → t.eng.syncLost = s.eng.syncLost) ∧
    (i ≠ .init → s.eng.syncLost = true → t.eng.syncLost = true) ∧
    (s.eng.syncLost = false → t.eng.syncLost = true →
      ∃ evs, t.trace = s.trace ++ evs ++ [.response .busError none]) ∧
    t.cfg = s.cfg ∧ t.inbox = s.inbox

/-- R28, R31, R55, R70: every frame any request writes goes to I2C_ADDR, has RW = 0, and carries the
backlight bit. -/
def Obligations.EveryFrameKeepsRwAndBacklight : Prop :=
  ∀ (s t : State) (i : Instr) (evs : List Emission) (a : BitVec 7) (f : Frame) (ok : Bool), s.Inv →
    exec i s = .next t → t.trace = s.trace ++ evs → .event (.busWrite a f ok) ∈ evs →
    a = s.cfg.i2cAddr ∧ line f s.cfg.pinmap.rw = false ∧ line f s.cfg.pinmap.bl = blBit s.cfg t.eng.bl

/-- R16: `seq` counts completed micro-operations, and at a BusError it is the index of the bus transaction
that failed: the micro-operations before that index all complete, and that one, run where they leave the
machine, is the BusError. -/
def Obligations.SeqNamesTheMicroOperation : Prop :=
  ∀ (ops : List MicroOp) (d : Option Byte) (s : State), s.eng.seq = 0 →
    (∀ d' t, runOps ops d s = .done d' t → t.eng.seq = ops.length) ∧
    (∀ t, runOps ops d s = .busError t →
      ∃ op, ops[t.eng.seq]? = some op ∧ (op = .read ∨ ∃ f, op = .write f) ∧
        ∃ d' u, runOps (ops.take t.eng.seq) d s = .done d' u ∧ runOp op d' u = .busError t)

/-- R6, R26: no engine rule reads observer state: with any other observer in its place a request has the
same outcome in everything but the observer. -/
def Obligations.ObserverDoesNotSteerTheEngine : Prop :=
  ∀ (s t : State) (i : Instr) (o : Observer), i.isRequest = true → exec i s = .next t →
    ∃ o', exec i { s with obs := o } = .next { t with obs := o' }

/-- R17, R31, R130: every step keeps the machine's invariant: the configuration well formed, no request in
progress between steps, `shadow` with RW = 0 and, while no failure is outstanding, E = 0, the controller's
memories canonical, and the latch equal to `shadow`. -/
def Obligations.StepKeepsTheInvariant : Prop := ∀ s t : State, s.Inv → step s = .next t → t.Inv

/-- The machine's invariant holds at instance creation, for every well-formed configuration, and at
State.reset. -/
def Obligations.InvariantAtReset : Prop :=
  State.reset.Inv ∧ ∀ c : Config, c.wf = true → (State.resetFor c).Inv

/-- R32, R148: the engine's registers at instance creation; R127: the latch, the busy time and the fault at
power-on. The controller's other registers at State.reset are the model's choice (log entry 2) and no part
of this. -/
def Obligations.ResetState : Prop :=
  ∀ c : Config, (State.resetFor c).PoweredOn c ∧ (State.resetFor c).eng.fsm.code = 0#2 ∧
    (State.resetFor c).eng.seq = 0 ∧ (State.resetFor c).eng.busy = false ∧
    (State.resetFor c).eng.bl = c.backlightInit ∧ (State.resetFor c).eng.ctrl = 0b000#3 ∧
    (State.resetFor c).eng.entry = 0b00#2 ∧ (State.resetFor c).eng.shadow = 0x00#8 ∧
    (State.resetFor c).eng.syncLost = false

/-! ### The controller's words

That a word reaches the controller whole, in whatever interface mode, and leaves that mode in place unless it
is a function set, is the model's choice for the word rows of the table (log entry 8). -/

/-- R115, R117: Clear display. -/
def Obligations.ClearDisplayWord : Prop :=
  ∀ s : State, s.obs.running = true → s.obs.busy = 0 →
    ∃ m : Memory, exec .clearDisplay s = .next { s with obs := { s.obs with
        ddram := m, ac := 0#7, space := .dd, id := true, shift := 0, busy := 1520 } } ∧
      ∀ a, m.read a = if validDdram s.obs.n a then 0x20#8 else s.obs.ddram.read a

/-- R115, R119 to R121: Return home, Entry mode set and Display control, with every other register and both
memories unchanged. -/
def Obligations.HomeEntryAndDisplayWords : Prop :=
  ∀ s : State, s.obs.running = true → s.obs.busy = 0 →
    (∀ x, exec (.returnHome x) s = .next { s with obs := { s.obs with
      ac := 0#7, space := .dd, shift := 0, busy := 1520 } }) ∧
    (∀ inc sh, exec (.entryModeSet inc sh) s = .next { s with obs := { s.obs with
      id := inc, s := sh, busy := 37 } }) ∧
    (∀ d c b, exec (.displayControl d c b) s = .next { s with obs := { s.obs with
      d := d, c := c, b := b, busy := 37 } })

/-- R115, R122: Cursor or display shift. -/
def Obligations.ShiftWord : Prop :=
  ∀ (s : State) (rl : Bool) (x : BitVec 2), s.obs.running = true → s.obs.busy = 0 →
    exec (.cursorDisplayShift false rl x) s = .next { s with obs := { s.obs with
      ac := acStep s.obs.n s.obs.ac rl, busy := 37 } } ∧
    exec (.cursorDisplayShift true rl x) s = .next { s with obs := { s.obs with
      shift := (s.obs.shift + (if rl then (if s.obs.n then 40 else 80) - 1 else 1))
        % (if s.obs.n then 40 else 80), busy := 37 } }

/-- R115, R123: Function set. Two things are the model's choices where `n` changes, since R123 says nothing of
them: that the display shift is unchanged, which R107 counts modulo LLEN(n) (log entry 22), and that every
DDRAM cell keeps its contents (log entry 7). -/
def Obligations.FunctionSetWord : Prop :=
  ∀ (s : State) (dl n f : Bool) (x : BitVec 2), s.obs.running = true → s.obs.busy = 0 →
    exec (.functionSet dl n f x) s = .next { s with obs := { s.obs with
      dl := dl, n := n, f := f, ifmode := if dl then .eight else .fourHi, busy := 37 } }

/-- R115, R124: Set CGRAM address and Set DDRAM address. An address that does not exist leaves one that does,
whichever the draw. -/
def Obligations.SetAddressWords : Prop :=
  ∀ s : State, s.obs.running = true → s.obs.busy = 0 →
    (∀ a : BitVec 6, exec (.setCgramAddr a) s = .next { s with obs := { s.obs with
      ac := a.setWidth 7, space := .cg, busy := 37 } }) ∧
    (∀ a : BitVec 7, validDdram s.obs.n a.toNat = true →
      exec (.setDdramAddr a) s = .next { s with obs := { s.obs with ac := a, space := .dd, busy := 37 } }) ∧
    (∀ a : BitVec 7, validDdram s.obs.n a.toNat = false → ∃ b : BitVec 7,
      validDdram s.obs.n b.toNat = true ∧
      exec (.setDdramAddr a) s = .next { s with obs := { s.obs.drawRest with
        ac := b, space := .dd, busy := 37 } })

/-- R115, R125: a data write to DDRAM, at an address that exists, and to CGRAM: one cell is written, every
other byte reads as before, and the address counter steps. -/
def Obligations.WriteDataWord : Prop :=
  ∀ (s : State) (v : Byte), s.obs.running = true → s.obs.busy = 0 → s.MemoriesWf →
    (s.obs.space = .dd → validDdram s.obs.n s.obs.ac.toNat = true →
      ∃ m : Memory, exec (.writeData v) s = .next { s with obs := { s.obs with
          ddram := m, ac := acStep s.obs.n s.obs.ac s.obs.id,
          shift := (if s.obs.s then
              (s.obs.shift + (if s.obs.id then 1 else (if s.obs.n then 40 else 80) - 1))
                % (if s.obs.n then 40 else 80)
            else s.obs.shift), busy := 37 } } ∧
        m.read s.obs.ac.toNat = v ∧ ∀ a, a ≠ s.obs.ac.toNat → m.read a = s.obs.ddram.read a) ∧
    (s.obs.space = .cg →
      ∃ m : Memory, exec (.writeData v) s = .next { s with obs := { s.obs with
          cgram := m, ac := BitVec.ofNat 7 ((s.obs.ac.toNat + (if s.obs.id then 1 else 63)) % 64),
          busy := 37 } } ∧
        m.read (s.obs.ac.toNat % 64) = v ∧ ∀ a, a ≠ s.obs.ac.toNat % 64 → m.read a = s.obs.cgram.read a)

/-- A data write at a DDRAM address that does not exist in the line mode completes: it writes no cell, and
the address counter, the shift and the busy time move as R125 says. That no cell is written is the model's
choice (log entry 7): R107 says only that the cell does not exist. -/
def Obligations.DataWriteAtMissingAddress : Prop :=
  ∀ (s : State) (v : Byte), s.obs.running = true → s.obs.busy = 0 → s.obs.space = .dd →
    validDdram s.obs.n s.obs.ac.toNat = false →
    exec (.writeData v) s = .next { s with obs := { s.obs with
      ac := acStep s.obs.n s.obs.ac s.obs.id,
      shift := (if s.obs.s then
          (s.obs.shift + (if s.obs.id then 1 else (if s.obs.n then 40 else 80) - 1))
            % (if s.obs.n then 40 else 80)
        else s.obs.shift), busy := 37 } }

/-- R118: the word 0x00 is the observer fault UNDEF_INSTR. R111, R118 and I35 refuse a latched read cycle;
that a read word is refused by the step in every state, a busy or stopped controller included (log entry 6),
and that the word 0x00 leaves the busy time as it is (log entry 27), are the model's choices. -/
def Obligations.UndefinedAndReadWords : Prop :=
  (∀ s : State, s.obs.running = true → s.obs.busy = 0 →
    exec .noInstruction00 s = .next { s with obs := { s.obs with fault := .undefInstr } }) ∧
  (∀ (s : State) (x : Byte), exec (.readBusyAddr x) s = .refused .readCycle ∧
    exec (.readData x) s = .refused .readCycle)

/-- R112, R113, R123: the bootstrap nibbles at the controller, by interface mode: a whole word in 8-bit mode,
whose low nibble is a draw, a high nibble held, or a low nibble that completes the held one. That the
display shift (log entry 22) and every DDRAM cell (log entry 7) are unchanged where the draw changes `n` are
the model's choices. -/
def Obligations.BootNibbles : Prop :=
  ∀ s : State, s.obs.running = true → s.obs.busy = 0 →
    (s.obs.ifmode = .eight →
      (∃ n f, exec .bootNibble3 s = .next { s with obs := { s.obs.drawRest with
        dl := true, n := n, f := f, ifmode := .eight, busy := 37 } }) ∧
      (∃ n f, exec .bootNibble2 s = .next { s with obs := { s.obs.drawRest with
        dl := false, n := n, f := f, ifmode := .fourHi, busy := 37 } })) ∧
    (s.obs.ifmode = .fourHi →
      exec .bootNibble3 s = .next { s with obs := { s.obs with ifmode := .fourLo 0x3#4 false } } ∧
      exec .bootNibble2 s = .next { s with obs := { s.obs with ifmode := .fourLo 0x2#4 false } }) ∧
    (∀ h, s.obs.ifmode = .fourLo h false →
      exec .bootNibble3 s = .next { s with obs :=
        ({ s.obs with ifmode := .fourHi } : Observer).execute (h ++ 0x3#4) false } ∧
      exec .bootNibble2 s = .next { s with obs :=
        ({ s.obs with ifmode := .fourHi } : Observer).execute (h ++ 0x2#4) false }) ∧
    (∀ h, s.obs.ifmode = .fourLo h true →
      (∃ r, exec .bootNibble3 s = .next { s with obs :=
        ({ s.obs.drawRest with ifmode := .fourHi } : Observer).execute (h ++ 0x3#4) r }) ∧
      (∃ r, exec .bootNibble2 s = .next { s with obs :=
        ({ s.obs.drawRest with ifmode := .fourHi } : Observer).execute (h ++ 0x2#4) r }))

/-- R115, R118: what reaches a busy controller is the fault HAZARD_BUSY and has no other effect, and a
stopped observer takes nothing. That a word or nibble row meets these checks (log entry 8), and that a refused
read cycle stops the observer as a fault does (log entry 6), are the model's choices. -/
def Obligations.BusyOrStoppedController : Prop :=
  ∀ (s : State) (i : Instr), i.isRequest = false → (∀ x, i ≠ .readBusyAddr x) → (∀ x, i ≠ .readData x) →
    (s.obs.running = true → 0 < s.obs.busy →
      exec i s = .next { s with obs := { s.obs with fault := .hazardBusy } }) ∧
    (s.obs.running = false → exec i s = .next s)

/-- R126: the address counter's order through DDRAM. -/
def Obligations.AddressCounterOrder : Prop :=
  acStep true 0x27#7 true = 0x40#7 ∧ acStep true 0x67#7 true = 0x00#7 ∧
  acStep true 0x40#7 false = 0x27#7 ∧ acStep true 0x00#7 false = 0x67#7 ∧
  acStep false 0x4F#7 true = 0x00#7 ∧ acStep false 0x00#7 false = 0x4F#7 ∧
  (∀ a : DdAddr, a ≠ 0x27#7 → a ≠ 0x67#7 → acStep true a true = a + 1#7) ∧
  (∀ a : DdAddr, a ≠ 0x40#7 → a ≠ 0x00#7 → acStep true a false = a - 1#7) ∧
  (∀ a : DdAddr, a ≠ 0x4F#7 → acStep false a true = a + 1#7) ∧
  (∀ a : DdAddr, a ≠ 0x00#7 → acStep false a false = a - 1#7) ∧
  (∀ (n : Bool) (a : DdAddr) (up : Bool), validDdram n a.toNat = true →
    validDdram n (acStep n a up).toNat = true ∧ acStep n (acStep n a up) (!up) = a)

/-! ### The latch -/

/-- R108 to R111, R114, R118: the observer's event rules: a successful write sets the latch, a failed one
leaves the old value or acts as a successful one, a change that is no falling edge of E latches nothing, a
read changes nothing, a wait runs the busy time down, and a stopped observer takes nothing. That a refused
read cycle stops the observer as a fault does (log entry 6), and that the latch holds its new value also where
the edge is a fault or a refusal (log entry 23), are the model's choices. -/
def Obligations.ObserverEventRules : Prop :=
  ∀ (c : Config) (o : Observer),
    (o.running = false → ∀ ev, o.take c ev = o) ∧
    (o.running = true →
      (∀ v : Frame, (o.take c (.busWrite c.i2cAddr v true)).latch = v) ∧
      (∀ v : Frame, line o.latch c.pinmap.e = false ∨ line v c.pinmap.e = true →
        o.take c (.busWrite c.i2cAddr v true) = { o with latch := v }) ∧
      (∀ v : Frame, o.take c (.busWrite c.i2cAddr v false) = o.drawRest ∨
        o.take c (.busWrite c.i2cAddr v false) = o.drawRest.take c (.busWrite c.i2cAddr v true)) ∧
      (∀ a r, o.take c (.busRead a r) = o) ∧
      (∀ t, o.take c (.wait t) = { o with busy := o.busy - t }))

/-- R111: the edge rule. A latch change that is no falling edge of E latches nothing. On a falling edge, in
order: a busy controller, lines that did not hold, a read cycle, and else the nibble on D7..D4 with the level
of RS. The flag that records a refused read cycle (log entry 6), and that the latch holds its new value at a
fault and at a refusal (log entry 23), are the model's choices. -/
def Obligations.EdgeRule : Prop :=
  ∀ (c : Config) (o : Observer) (v : Frame), o.running = true →
    let t := o.take c (.busWrite c.i2cAddr v true)
    let held := ∀ i : Fin 8, i ≠ c.pinmap.e → i ≠ c.pinmap.bl → line o.latch i = line v i
    (line o.latch c.pinmap.e = false ∨ line v c.pinmap.e = true → t = { o with latch := v }) ∧
    (line o.latch c.pinmap.e = true → line v c.pinmap.e = false →
      (0 < o.busy → t = { o with latch := v, fault := .hazardBusy }) ∧
      (o.busy = 0 → ¬ held → t = { o with latch := v, fault := .hazardHold }) ∧
      (o.busy = 0 → held → line o.latch c.pinmap.rw = true → t = { o with latch := v, refused := true }) ∧
      (o.busy = 0 → held → line o.latch c.pinmap.rw = false →
        ∃ nib : Nibble, nib.getLsbD 3 = line o.latch c.pinmap.d7 ∧ nib.getLsbD 2 = line o.latch c.pinmap.d6 ∧
          nib.getLsbD 1 = line o.latch c.pinmap.d5 ∧ nib.getLsbD 0 = line o.latch c.pinmap.d4 ∧
          t = ({ o with latch := v } : Observer).takeNibble nib (line o.latch c.pinmap.rs)))

/-! ### The engine and its display together -/

/-- R57, R76, R78, R111, R113: the four frames and the wait of a byte transfer make an aligned controller
execute that byte with the mode's RS, once, and then run its busy time down. -/
def Obligations.ByteTransferExecutesItsWord : Prop :=
  ∀ (c : Config) (bl : Bool) (v : Byte) (m : Mode) (t : Nat) (o : Observer), c.wf = true → o.Aligned →
    o.takeAll c (transferEvents c bl v m t)
      = ({ o.execute v (rsOf m) with latch := frame c (v.extractLsb' 0 4) (rsOf m) bl false } : Observer).take c
          (.wait t)

/-- R129: the bootstrap leaves the controller in 4-bit mode waiting for a high nibble, with no fault, from
any interface state, any latch and any busy time up to T_POWER_ON, whatever the draws. -/
def Obligations.BootstrapResynchronises : Prop :=
  ∀ (c : Config) (bl : Bool) (o : Observer), c.wf = true → o.running = true → o.busy ≤ c.tPowerOn →
    (o.takeAll c (bootstrapEvents c bl)).Aligned ∧ (o.takeAll c (bootstrapEvents c bl)).dl = false

/-- R130: under R129's conditions an INIT whose writes all succeed leaves the controller as R130 says, in
step with the engine. -/
def Obligations.InitEndsInStep : Prop :=
  ∀ s : State, s.Accepts → s.BusOk 28 → s.obs.running = true → s.obs.busy ≤ s.cfg.tPowerOn →
    ∃ t : State, exec .init s = .next t ∧ t.InStep ∧ t.obs.id = true ∧ t.obs.s = false ∧ t.obs.d = true ∧
      t.obs.c = false ∧ t.obs.b = false ∧ t.obs.ac = 0#7 ∧ t.obs.shift = 0 ∧
      ∀ a, validDdram (fsN s.cfg) a = true → t.obs.ddram.read a = 0x20#8

/-- R43, R118, R151: while the engine is in step with its display no request brings a hazard: unless the
transport fails, the engine is in step again afterwards. -/
def Obligations.RequestsKeepInStep : Prop :=
  ∀ (s t : State) (i : Instr), s.Inv → s.InStep → i.isRequest = true → exec i s = .next t →
    t.eng.syncLost = false → t.InStep

/-- R106: CLEAR followed at once by PUTC 'A' leaves 'A' at DDRAM address 0 and the address counter at 1, with
T_CLEAR, at least 1520, waited in between. -/
def Obligations.ClearThenWrite : Prop :=
  ∀ s : State, s.Inv → s.InStep → s.BusOk 8 →
    ∃ t u : State, exec .clear s = .next t ∧ exec (.putc 0x41#8) t = .next u ∧ u.InStep ∧
      u.obs.ddram.read 0 = 0x41#8 ∧ u.obs.ac = 0x01#7 ∧
      (∀ a, a ≠ 0 → validDdram (fsN s.cfg) a = true → u.obs.ddram.read a = 0x20#8) ∧ 1520 ≤ s.cfg.tClear ∧
      ∃ as bs, t.trace = s.trace ++ as ++ [.event (.wait s.cfg.tClear), .response .ok none] ∧
        u.trace = t.trace ++ bs

/-- R98, R99, R105: CURSOR 1, BLINK 1, CURSOR 0 resend the whole control byte each time and leave display
unchanged, cursor off and blink on. R105 gives the first byte for `ctrl.B = 0`; R98 resends the bit as it is
(log entry 25). -/
def Obligations.ControlRoundTrip : Prop :=
  ∀ s : State, s.Accepts → s.eng.fsm = .ready → s.BusOk 12 →
    ∃ t u w : State, exec (.cursor true) s = .next t ∧ exec (.blink true) t = .next u ∧
      exec (.cursor false) u = .next w ∧
      w.eng.ctrl.getLsbD 2 = s.eng.ctrl.getLsbD 2 ∧ w.eng.ctrl.getLsbD 1 = false ∧
      w.eng.ctrl.getLsbD 0 = true ∧
      let send := fun low => (transferEvents s.cfg s.eng.bl
        (BitVec.ofNat 8 (0x08 + 4 * (s.eng.ctrl.getLsbD 2).toNat + low)) .instruction s.cfg.tCmd).map
          Emission.event ++ [.response .ok none]
      w.trace = s.trace ++ send (0b10 + (s.eng.ctrl.getLsbD 0).toNat) ++ send 0b11 ++ send 0b01

/-- R93, R128: after a CLEAR the controller increments, whatever the engine's entry mirror says, and the
mirror is unchanged. -/
def Obligations.ClearLeavesTheEntryMirror : Prop :=
  ∀ s : State, s.Inv → s.InStep → s.BusOk 4 →
    ∃ t : State, exec .clear s = .next t ∧ t.obs.id = true ∧ t.eng.entry = s.eng.entry ∧
      t.eng.ctrl = s.eng.ctrl ∧ t.eng.bl = s.eng.bl

/-- R72: the expansions of the facade's calls. Every call expands to requests, and every write_line begins with
`SETCUR l, 0`, which fails for a line that does not exist (SetcurOutOfBounds). R72 leaves a text longer than a
line to the policy; that TRUNCATE drops what does not fit, and that WRAP writes the first COLUMNS bytes and
then the rest in order, in pieces at places of its own, is the model's choice (log entry 17). -/
def Obligations.FacadeExpansions : Prop :=
  ∀ c : Config, FacadeCall.expand c .clear = [.clear] ∧
    FacadeCall.expand c .cursorOn = [.cursor true] ∧ FacadeCall.expand c .cursorOff = [.cursor false] ∧
    FacadeCall.expand c .blinkOn = [.blink true] ∧ FacadeCall.expand c .blinkOff = [.blink false] ∧
    FacadeCall.expand c .backlightOn = [.backlight true] ∧
    FacadeCall.expand c .backlightOff = [.backlight false] ∧
    (∀ (text : List Byte) (l : Nat), text.length ≤ c.columns →
      FacadeCall.expand c (.writeLine text l) = .setcur l 0 :: text.map .putc) ∧
    (∀ (text : List Byte) (l : Nat), c.columns < text.length → c.writeLinePolicy = .truncate →
      FacadeCall.expand c (.writeLine text l) = .setcur l 0 :: (text.take c.columns).map .putc) ∧
    (∀ (text : List Byte) (l : Nat), c.columns < text.length → c.writeLinePolicy = .wrap → 1 ≤ c.columns →
      ∃ rest, FacadeCall.expand c (.writeLine text l)
          = .setcur l 0 :: ((text.take c.columns).map .putc ++ rest) ∧
        rest.filterMap (fun i => match i with | .putc b => some b | _ => none) = text.drop c.columns ∧
        ∀ i ∈ rest, (∃ b, i = .putc b) ∨ ∃ l' c', i = .setcur l' c') ∧
    ∀ (call : FacadeCall), ∀ i ∈ FacadeCall.expand c call, i.isRequest = true

/-- R116: at an idle, running controller every word with RW = 0, as a row of the opcode table, is `execute` of
its byte and its RS: the operation through which nibbles and transfers reach the controller. That the row is
the controller alone receiving the word, whole and in whatever interface mode, is the model's choice (log
entry 8). -/
def Obligations.WordRowsAreExecute : Prop :=
  ∀ (s : State) (v : Byte) (rs : Bool), s.obs.running = true → s.obs.busy = 0 →
    exec (decodeWord (BitVec.ofBool rs ++ 0#1 ++ v)) s = .next { s with obs := s.obs.execute v rs }

/-- R44, R91, R129, R138: the recovery from a failed INIT: whatever values the controller's fields are left
with, under R129's premises on the fault and the busy time, the next INIT whose writes succeed brings the
display into step with the engine again. -/
def Obligations.InitRecoversFromAFailedInit : Prop :=
  ∀ (s t : State) (k : Nat), s.Accepts → k < 28 → s.BusFailsAt k → exec .init s = .next t →
    t.obs.running = true → t.obs.busy ≤ t.cfg.tPowerOn → t.BusOk 28 →
    ∃ u : State, exec .init t = .next u ∧ u.InStep
end

