-- ==== Sys2Proof/Laws/State.lean ====
section
/-! SUPPORT. What each named update of the state does to each field of it. -/

namespace Sys2Proof.Machine

@[simp] theorem emit_cfg (ev : Event) (s : State) :
    (State.emit ev s).cfg = s.cfg := rfl

@[simp] theorem emit_eng (ev : Event) (s : State) :
    (State.emit ev s).eng = s.eng := rfl

@[simp] theorem emit_obs (ev : Event) (s : State) :
    (State.emit ev s).obs = s.obs.take s.cfg ev := rfl

@[simp] theorem emit_bus (ev : Event) (s : State) :
    (State.emit ev s).bus = s.bus := rfl

@[simp] theorem emit_trace (ev : Event) (s : State) :
    (State.emit ev s).trace = s.trace ++ [.event ev] := rfl

@[simp] theorem emit_inbox (ev : Event) (s : State) :
    (State.emit ev s).inbox = s.inbox := rfl

@[simp] theorem tick_cfg (s : State) :
    (State.tick s).cfg = s.cfg := rfl

@[simp] theorem tick_eng (s : State) :
    (State.tick s).eng = { s.eng with seq := s.eng.seq + 1 } := rfl

@[simp] theorem tick_obs (s : State) :
    (State.tick s).obs = s.obs := rfl

@[simp] theorem tick_bus (s : State) :
    (State.tick s).bus = s.bus := rfl

@[simp] theorem tick_trace (s : State) :
    (State.tick s).trace = s.trace := rfl

@[simp] theorem tick_inbox (s : State) :
    (State.tick s).inbox = s.inbox := rfl

@[simp] theorem respond_cfg (code : Code) (data : Option Byte) (s : State) :
    (respond code data s).cfg = s.cfg := rfl

@[simp] theorem respond_eng (code : Code) (data : Option Byte) (s : State) :
    (respond code data s).eng = { s.eng with seq := 0, busy := false } := rfl

@[simp] theorem respond_obs (code : Code) (data : Option Byte) (s : State) :
    (respond code data s).obs = s.obs := rfl

@[simp] theorem respond_bus (code : Code) (data : Option Byte) (s : State) :
    (respond code data s).bus = s.bus := rfl

@[simp] theorem respond_trace (code : Code) (data : Option Byte) (s : State) :
    (respond code data s).trace = s.trace ++ [.response code data] := rfl

@[simp] theorem respond_inbox (code : Code) (data : Option Byte) (s : State) :
    (respond code data s).inbox = s.inbox := rfl

@[simp] theorem initBegin_cfg (s : State) :
    (initBegin s).cfg = s.cfg := rfl

@[simp] theorem initBegin_eng (s : State) :
    (initBegin s).eng = { s.eng with fsm := .initializing, ctrl := 0b100#3, entry := 0b10#2 } := rfl

@[simp] theorem initBegin_obs (s : State) :
    (initBegin s).obs = s.obs := rfl

@[simp] theorem initBegin_bus (s : State) :
    (initBegin s).bus = s.bus := rfl

@[simp] theorem initBegin_trace (s : State) :
    (initBegin s).trace = s.trace := rfl

@[simp] theorem initBegin_inbox (s : State) :
    (initBegin s).inbox = s.inbox := rfl

@[simp] theorem initEnd_cfg (s : State) :
    (initEnd s).cfg = s.cfg := rfl

@[simp] theorem initEnd_eng (s : State) :
    (initEnd s).eng = { s.eng with fsm := .ready, syncLost := false, seq := 0, busy := false } := rfl

@[simp] theorem initEnd_obs (s : State) :
    (initEnd s).obs = s.obs := rfl

@[simp] theorem initEnd_bus (s : State) :
    (initEnd s).bus = s.bus := rfl

@[simp] theorem initEnd_trace (s : State) :
    (initEnd s).trace = s.trace ++ [.response .ok none] := rfl

@[simp] theorem initEnd_inbox (s : State) :
    (initEnd s).inbox = s.inbox := rfl

@[simp] theorem raiseBusError_cfg (s : State) :
    (raiseBusError s).cfg = s.cfg := rfl

@[simp] theorem raiseBusError_eng (s : State) :
    (raiseBusError s).eng = { s.eng with syncLost := true, seq := 0, busy := false } := rfl

@[simp] theorem raiseBusError_obs (s : State) :
    (raiseBusError s).obs = s.obs := rfl

@[simp] theorem raiseBusError_bus (s : State) :
    (raiseBusError s).bus = s.bus := rfl

@[simp] theorem raiseBusError_trace (s : State) :
    (raiseBusError s).trace = s.trace ++ [.response .busError none] := rfl

@[simp] theorem raiseBusError_inbox (s : State) :
    (raiseBusError s).inbox = s.inbox := rfl

@[simp] theorem raiseInitBusError_cfg (s : State) :
    (raiseInitBusError s).cfg = s.cfg := rfl

@[simp] theorem raiseInitBusError_eng (s : State) :
    (raiseInitBusError s).eng = { s.eng with syncLost := true, fsm := .uninit, seq := 0, busy := false } := rfl

@[simp] theorem raiseInitBusError_obs (s : State) :
    (raiseInitBusError s).obs = s.obs.indeterminate := rfl

@[simp] theorem raiseInitBusError_bus (s : State) :
    (raiseInitBusError s).bus = s.bus := rfl

@[simp] theorem raiseInitBusError_trace (s : State) :
    (raiseInitBusError s).trace = s.trace ++ [.response .busError none] := rfl

@[simp] theorem raiseInitBusError_inbox (s : State) :
    (raiseInitBusError s).inbox = s.inbox := rfl

@[simp] theorem atController_cfg (f : Observer → Observer) (s : State) :
    (atController f s).cfg = s.cfg := rfl

@[simp] theorem atController_eng (f : Observer → Observer) (s : State) :
    (atController f s).eng = s.eng := rfl

@[simp] theorem atController_obs (f : Observer → Observer) (s : State) :
    (atController f s).obs = s.obs.receive f := rfl

@[simp] theorem atController_bus (f : Observer → Observer) (s : State) :
    (atController f s).bus = s.bus := rfl

@[simp] theorem atController_trace (f : Observer → Observer) (s : State) :
    (atController f s).trace = s.trace := rfl

@[simp] theorem atController_inbox (f : Observer → Observer) (s : State) :
    (atController f s).inbox = s.inbox := rfl

@[simp] theorem consume_cfg (s : State) :
    s.consume.cfg = s.cfg := rfl

@[simp] theorem consume_eng (s : State) :
    s.consume.eng = s.eng := rfl

@[simp] theorem consume_obs (s : State) :
    s.consume.obs = s.obs := rfl

@[simp] theorem consume_bus (s : State) :
    s.consume.bus = s.bus := rfl

@[simp] theorem consume_trace (s : State) :
    s.consume.trace = s.trace := rfl

@[simp] theorem consume_inbox (s : State) :
    s.consume.inbox = s.inbox.tail := rfl

@[simp] theorem resetFor_cfg (c : Config) :
    (State.resetFor c).cfg = c := rfl

@[simp] theorem resetFor_eng (c : Config) :
    (State.resetFor c).eng = Engine.reset c := rfl

@[simp] theorem resetFor_obs (c : Config) :
    (State.resetFor c).obs = Observer.reset c := rfl

@[simp] theorem resetFor_bus (c : Config) :
    (State.resetFor c).bus = { answers := [], given := 0 } := rfl

@[simp] theorem resetFor_trace (c : Config) :
    (State.resetFor c).trace = [] := rfl

@[simp] theorem resetFor_inbox (c : Config) :
    (State.resetFor c).inbox = [] := rfl

@[simp] theorem settled_cfg (s : State) (eng : Engine) (evs : List Event) (code : Code) (data : Option Byte) :
    (s.settled eng evs code data).cfg = s.cfg := rfl

@[simp] theorem settled_eng (s : State) (eng : Engine) (evs : List Event) (code : Code) (data : Option Byte) :
    (s.settled eng evs code data).eng = { eng with shadow := shadowAfter s.eng.shadow evs, seq := 0, busy := false } := rfl

@[simp] theorem settled_obs (s : State) (eng : Engine) (evs : List Event) (code : Code) (data : Option Byte) :
    (s.settled eng evs code data).obs = s.obs.takeAll s.cfg evs := rfl

@[simp] theorem settled_bus (s : State) (eng : Engine) (evs : List Event) (code : Code) (data : Option Byte) :
    (s.settled eng evs code data).bus = s.bus.skip (transactions evs) := rfl

@[simp] theorem settled_trace (s : State) (eng : Engine) (evs : List Event) (code : Code) (data : Option Byte) :
    (s.settled eng evs code data).trace = s.trace ++ evs.map .event ++ [.response code data] := rfl

@[simp] theorem settled_inbox (s : State) (eng : Engine) (evs : List Event) (code : Code) (data : Option Byte) :
    (s.settled eng evs code data).inbox = s.inbox := rfl

@[simp] theorem drawRest_latch (o : Observer) : o.drawRest.latch = o.latch := rfl

@[simp] theorem drawRest_ifmode (o : Observer) : o.drawRest.ifmode = o.ifmode := rfl

@[simp] theorem drawRest_ac (o : Observer) : o.drawRest.ac = o.ac := rfl

@[simp] theorem drawRest_space (o : Observer) : o.drawRest.space = o.space := rfl

@[simp] theorem drawRest_ddram (o : Observer) : o.drawRest.ddram = o.ddram := rfl

@[simp] theorem drawRest_cgram (o : Observer) : o.drawRest.cgram = o.cgram := rfl

@[simp] theorem drawRest_id (o : Observer) : o.drawRest.id = o.id := rfl

@[simp] theorem drawRest_s (o : Observer) : o.drawRest.s = o.s := rfl

@[simp] theorem drawRest_d (o : Observer) : o.drawRest.d = o.d := rfl

@[simp] theorem drawRest_c (o : Observer) : o.drawRest.c = o.c := rfl

@[simp] theorem drawRest_b (o : Observer) : o.drawRest.b = o.b := rfl

@[simp] theorem drawRest_dl (o : Observer) : o.drawRest.dl = o.dl := rfl

@[simp] theorem drawRest_n (o : Observer) : o.drawRest.n = o.n := rfl

@[simp] theorem drawRest_f (o : Observer) : o.drawRest.f = o.f := rfl

@[simp] theorem drawRest_shift (o : Observer) : o.drawRest.shift = o.shift := rfl

@[simp] theorem drawRest_busy (o : Observer) : o.drawRest.busy = o.busy := rfl

@[simp] theorem drawRest_fault (o : Observer) : o.drawRest.fault = o.fault := rfl

@[simp] theorem drawRest_refused (o : Observer) : o.drawRest.refused = o.refused := rfl

@[simp] theorem drawRest_draws (o : Observer) : o.drawRest.draws = o.draws.tail := rfl

@[simp] theorem drawRest_drawn (o : Observer) : o.drawRest.drawn = o.drawn + 1 := rfl

@[simp] theorem drawRest_times (o : Observer) : o.drawRest.times = o.times := rfl

@[simp] theorem drawRest_running (o : Observer) : o.drawRest.running = o.running := rfl

@[simp] theorem skipDraws_latch (k : Nat) (o : Observer) : (o.skipDraws k).latch = o.latch := rfl

@[simp] theorem skipDraws_ifmode (k : Nat) (o : Observer) : (o.skipDraws k).ifmode = o.ifmode := rfl

@[simp] theorem skipDraws_ac (k : Nat) (o : Observer) : (o.skipDraws k).ac = o.ac := rfl

@[simp] theorem skipDraws_space (k : Nat) (o : Observer) : (o.skipDraws k).space = o.space := rfl

@[simp] theorem skipDraws_ddram (k : Nat) (o : Observer) : (o.skipDraws k).ddram = o.ddram := rfl

@[simp] theorem skipDraws_cgram (k : Nat) (o : Observer) : (o.skipDraws k).cgram = o.cgram := rfl

@[simp] theorem skipDraws_id (k : Nat) (o : Observer) : (o.skipDraws k).id = o.id := rfl

@[simp] theorem skipDraws_s (k : Nat) (o : Observer) : (o.skipDraws k).s = o.s := rfl

@[simp] theorem skipDraws_d (k : Nat) (o : Observer) : (o.skipDraws k).d = o.d := rfl

@[simp] theorem skipDraws_c (k : Nat) (o : Observer) : (o.skipDraws k).c = o.c := rfl

@[simp] theorem skipDraws_b (k : Nat) (o : Observer) : (o.skipDraws k).b = o.b := rfl

@[simp] theorem skipDraws_dl (k : Nat) (o : Observer) : (o.skipDraws k).dl = o.dl := rfl

@[simp] theorem skipDraws_n (k : Nat) (o : Observer) : (o.skipDraws k).n = o.n := rfl

@[simp] theorem skipDraws_f (k : Nat) (o : Observer) : (o.skipDraws k).f = o.f := rfl

@[simp] theorem skipDraws_shift (k : Nat) (o : Observer) : (o.skipDraws k).shift = o.shift := rfl

@[simp] theorem skipDraws_busy (k : Nat) (o : Observer) : (o.skipDraws k).busy = o.busy := rfl

@[simp] theorem skipDraws_fault (k : Nat) (o : Observer) : (o.skipDraws k).fault = o.fault := rfl

@[simp] theorem skipDraws_refused (k : Nat) (o : Observer) : (o.skipDraws k).refused = o.refused := rfl

@[simp] theorem skipDraws_times (k : Nat) (o : Observer) : (o.skipDraws k).times = o.times := rfl

@[simp] theorem indeterminate_busy (o : Observer) : o.indeterminate.busy = o.drawBusy := rfl

@[simp] theorem indeterminate_times (o : Observer) : o.indeterminate.times = o.times.tail := rfl

@[simp] theorem indeterminate_latch (o : Observer) : o.indeterminate.latch = o.latch := rfl

@[simp] theorem indeterminate_fault (o : Observer) : o.indeterminate.fault = o.fault := rfl

@[simp] theorem indeterminate_refused (o : Observer) : o.indeterminate.refused = o.refused := rfl

@[simp] theorem indeterminate_running (o : Observer) : o.indeterminate.running = o.running := rfl

@[simp] theorem listening_latch (o : Observer) : o.listening.latch = o.latch := rfl

@[simp] theorem listening_ifmode (o : Observer) : o.listening.ifmode = o.ifmode := rfl

@[simp] theorem listening_ac (o : Observer) : o.listening.ac = o.ac := rfl

@[simp] theorem listening_space (o : Observer) : o.listening.space = o.space := rfl

@[simp] theorem listening_ddram (o : Observer) : o.listening.ddram = o.ddram := rfl

@[simp] theorem listening_cgram (o : Observer) : o.listening.cgram = o.cgram := rfl

@[simp] theorem listening_id (o : Observer) : o.listening.id = o.id := rfl

@[simp] theorem listening_s (o : Observer) : o.listening.s = o.s := rfl

@[simp] theorem listening_d (o : Observer) : o.listening.d = o.d := rfl

@[simp] theorem listening_c (o : Observer) : o.listening.c = o.c := rfl

@[simp] theorem listening_b (o : Observer) : o.listening.b = o.b := rfl

@[simp] theorem listening_dl (o : Observer) : o.listening.dl = o.dl := rfl

@[simp] theorem listening_n (o : Observer) : o.listening.n = o.n := rfl

@[simp] theorem listening_f (o : Observer) : o.listening.f = o.f := rfl

@[simp] theorem listening_shift (o : Observer) : o.listening.shift = o.shift := rfl

@[simp] theorem listening_draws (o : Observer) : o.listening.draws = o.draws := rfl

@[simp] theorem listening_drawn (o : Observer) : o.listening.drawn = o.drawn := rfl

@[simp] theorem listening_times (o : Observer) : o.listening.times = o.times := rfl

@[simp] theorem listening_busy (o : Observer) : o.listening.busy = 0 := rfl

@[simp] theorem listening_running (o : Observer) : o.listening.running = true := rfl

@[simp] theorem withFetchWord_cfg (s : State) (nbits w : Nat) :
    (s.withFetchWord nbits w).cfg = s.cfg := rfl

@[simp] theorem withFetchWord_eng (s : State) (nbits w : Nat) :
    (s.withFetchWord nbits w).eng = s.eng := rfl

@[simp] theorem withFetchWord_obs (s : State) (nbits w : Nat) :
    (s.withFetchWord nbits w).obs = s.obs.listening := rfl

@[simp] theorem withFetchWord_bus (s : State) (nbits w : Nat) :
    (s.withFetchWord nbits w).bus = s.bus := rfl

@[simp] theorem withFetchWord_trace (s : State) (nbits w : Nat) :
    (s.withFetchWord nbits w).trace = s.trace := rfl

@[simp] theorem withFetchWord_inbox (s : State) (nbits w : Nat) :
    (s.withFetchWord nbits w).inbox = (itemOfTable nbits w).getD (.line ['?']) :: s.inbox := rfl

end Sys2Proof.Machine
end

