-- ==== Sys2Proof/Laws/Ops.lean ====
section
/-! SUPPORT. What the shared operations do: the port primitives, a run of micro-operations, and the two
ends of a request. -/

namespace Sys2Proof.Machine

/-! ### The transport -/

theorem Transport.skip_add (m n : Nat) (b : Transport) : b.skip (m + n) = (b.skip m).skip n := by
  induction m generalizing b with
  | zero => simp [Transport.skip]
  | succ m ih => rw [Nat.succ_add]; exact ih b.rest

@[simp] theorem Transport.answerAt_zero (b : Transport) : b.answerAt 0 = b.answer := rfl

theorem Transport.answerAt_succ (b : Transport) (k : Nat) : b.answerAt (k + 1) = b.rest.answerAt k := rfl

/-! ### Event lists -/

theorem shadowAfter_append (f : Frame) (as bs : List Event) :
    shadowAfter f (as ++ bs) = shadowAfter (shadowAfter f as) bs := by
  induction as generalizing f with
  | nil => rfl
  | cons e es ih =>
    rcases e with ⟨a, g, _ | _⟩ | ⟨a, r⟩ | t <;> simp [shadowAfter, ih]

theorem transactions_append (as bs : List Event) :
    transactions (as ++ bs) = transactions as + transactions bs := by
  induction as with
  | nil => simp [transactions]
  | cons e es ih => rcases e with ⟨a, g, b⟩ | ⟨a, r⟩ | t <;> simp [transactions, ih] <;> omega

theorem takeAll_append (c : Config) (as bs : List Event) (o : Observer) :
    o.takeAll c (as ++ bs) = (o.takeAll c as).takeAll c bs := by
  induction as generalizing o with
  | nil => rfl
  | cons e es ih => exact ih _

/-! ### Micro-operations -/

/-- The event of a write or a wait that completes. -/
def opEvent (c : Config) : MicroOp → Event
  | .write f => .busWrite c.i2cAddr f true
  | .read => .busRead c.i2cAddr none
  | .wait t => .wait t

/-- The state inside a request after it has emitted `evs` in `n` completed micro-operations. -/
def State.advanced (s : State) (evs : List Event) (n : Nat) : State :=
  { s with
    eng := { s.eng with shadow := shadowAfter s.eng.shadow evs, seq := s.eng.seq + n }
    obs := s.obs.takeAll s.cfg evs
    bus := s.bus.skip (transactions evs)
    trace := s.trace ++ evs.map .event }

@[simp] theorem advanced_cfg (s : State) (evs : List Event) (n : Nat) : (s.advanced evs n).cfg = s.cfg := rfl

theorem advanced_advanced (s : State) (as bs : List Event) (m n : Nat) :
    (s.advanced as m).advanced bs n = s.advanced (as ++ bs) (m + n) := by
  simp [State.advanced, shadowAfter_append, takeAll_append, transactions_append, Transport.skip_add,
    Nat.add_assoc]

/-- R39: a write that succeeds. -/
theorem portWrite_ok {s : State} (h : s.bus.answer.ok = true) (b : Frame) (d : Option Byte) :
    portWrite b d s = .done d (s.advanced [.busWrite s.cfg.i2cAddr b true] 1) := by
  simp only [portWrite, h, if_true]
  rfl

/-- R39: a write that fails. -/
theorem portWrite_busError {s : State} (h : s.bus.answer.ok = false) (b : Frame) (d : Option Byte) :
    portWrite b d s = .busError (s.advanced [.busWrite s.cfg.i2cAddr b false] 0) := by
  simp only [portWrite, h]
  rfl

/-- R81: a wait completes. -/
theorem wait_done (t : Nat) (d : Option Byte) (s : State) :
    wait t d s = .done d (s.advanced [.wait t] 1) := rfl

/-- R40: a read that succeeds. -/
theorem portRead_ok {s : State} (h : s.bus.answer.ok = true) :
    portRead s = .done (some s.bus.answer.data)
      (s.advanced [.busRead s.cfg.i2cAddr (some s.bus.answer.data)] 1) := by
  simp only [portRead, readResult, h, if_true]
  rfl

/-- R40: a read that fails. -/
theorem portRead_busError {s : State} (h : s.bus.answer.ok = false) :
    portRead s = .busError (s.advanced [.busRead s.cfg.i2cAddr none] 0) := by
  simp only [portRead, readResult, h]
  rfl

/-- R16, R78: a run of writes and waits whose writes all succeed. -/
theorem runOps_ok (ops : List MicroOp) (hr : MicroOp.read ∉ ops) (d : Option Byte) (s : State)
    (hok : s.BusOk (transactions (ops.map (opEvent s.cfg)))) :
    runOps ops d s = .done d (s.advanced (ops.map (opEvent s.cfg)) ops.length) := by
  induction ops generalizing s with
  | nil => simp [runOps, State.advanced, shadowAfter, Observer.takeAll, transactions, Transport.skip]
  | cons op ops ih =>
    have hr' : MicroOp.read ∉ ops := fun h => hr (List.mem_cons_of_mem _ h)
    rcases op with f | _ | t
    · have h0 : s.bus.answer.ok = true := hok 0 (by simp [opEvent, transactions])
      rw [runOps, runOp, portWrite_ok h0]
      simp only
      rw [ih hr' _ ?_]
      · simp [advanced_advanced, opEvent, Nat.add_comm]
      · intro k hk
        exact hok (k + 1) (by simpa [opEvent, transactions] using hk)
    · exact absurd (List.mem_cons_self) hr
    · rw [runOps, runOp, wait_done]
      simp only
      rw [ih hr' _ ?_]
      · simp [advanced_advanced, opEvent, Nat.add_comm]
      · intro k hk
        exact hok k (by simpa [opEvent, transactions] using hk)

/-- R134, R135: a run of writes and waits whose `k`-th write is the first to fail. -/
theorem runOps_busError (ops : List MicroOp) (hr : MicroOp.read ∉ ops) (d : Option Byte) (s : State) (k : Nat)
    (hk : k < transactions (ops.map (opEvent s.cfg))) (hf : s.BusFailsAt k) :
    ∃ n, n < ops.length ∧
      runOps ops d s = .busError (s.advanced (failAt k (ops.map (opEvent s.cfg))) n) := by
  induction ops generalizing s k with
  | nil => simp [transactions] at hk
  | cons op ops ih =>
    have hr' : MicroOp.read ∉ ops := fun h => hr (List.mem_cons_of_mem _ h)
    obtain ⟨hok, hfail⟩ := hf
    rcases op with f | _ | t
    · cases k with
      | zero =>
        refine ⟨0, by simp, ?_⟩
        rw [runOps, runOp, portWrite_busError (by simpa using hfail)]
        rfl
      | succ k =>
        have h0 : s.bus.answer.ok = true := hok 0 (by omega)
        obtain ⟨n, hn, h⟩ := ih hr' (s.advanced [.busWrite s.cfg.i2cAddr f true] 1) k
          (by simpa [opEvent, transactions] using hk)
          ⟨fun j hj => hok (j + 1) (by omega), hfail⟩
        refine ⟨1 + n, by simp; omega, ?_⟩
        rw [runOps, runOp, portWrite_ok h0]
        simp only
        rw [h, advanced_advanced]
        rfl
    · exact absurd (List.mem_cons_self) hr
    · obtain ⟨n, hn, h⟩ := ih hr' (s.advanced [.wait t] 1) k
        (by simpa [opEvent, transactions] using hk) ⟨fun j hj => hok j hj, hfail⟩
      refine ⟨1 + n, by simp; omega, ?_⟩
      rw [runOps, runOp, wait_done]
      simp only
      rw [h, advanced_advanced]
      cases k <;> rfl

/-- A run of micro-operations changes nothing of the engine but `shadow` and `seq`, and neither the
configuration nor the inbox; the trace only grows, by events. -/
theorem runOps_keeps (ops : List MicroOp) (d : Option Byte) (s : State) :
    ∃ evs n, runOps ops d s = .busError (s.advanced evs n) ∨
      ∃ d', runOps ops d s = .done d' (s.advanced evs n) := by
  induction ops generalizing d s with
  | nil => exact ⟨[], 0, .inr ⟨d, by simp [runOps, State.advanced, shadowAfter, Observer.takeAll,
      transactions, Transport.skip]⟩⟩
  | cons op ops ih =>
    have one : ∃ evs n, runOp op d s = .busError (s.advanced evs n) ∨
        ∃ d', runOp op d s = .done d' (s.advanced evs n) := by
      rcases op with f | _ | t
      · cases h : s.bus.answer.ok
        · exact ⟨_, _, .inl (portWrite_busError h f d)⟩
        · exact ⟨_, _, .inr ⟨_, portWrite_ok h f d⟩⟩
      · cases h : s.bus.answer.ok
        · exact ⟨_, _, .inl (portRead_busError h)⟩
        · exact ⟨_, _, .inr ⟨_, portRead_ok h⟩⟩
      · exact ⟨_, _, .inr ⟨_, wait_done t d s⟩⟩
    obtain ⟨evs, n, h | ⟨d', h⟩⟩ := one
    · exact ⟨evs, n, .inl (by rw [runOps, h])⟩
    · obtain ⟨evs', n', h' | ⟨d'', h'⟩⟩ := ih d' (s.advanced evs n)
      · exact ⟨_, _, .inl (by rw [runOps, h]; simp only; rw [h', advanced_advanced])⟩
      · exact ⟨_, _, .inr ⟨d'', by rw [runOps, h]; simp only; rw [h', advanced_advanced]⟩⟩

/-! ### A whole request -/

/-- R8, R17: what the port answers. -/
theorem accept_of_accepts {s : State} (h : s.Accepts) (body : State → State) :
    accept body s = .next (body { s with eng := { s.eng with busy := true, seq := 0 } }) := by
  simp [accept, h.1, h.2]

/-- R8, R17: a request that answers a next state was accepted. -/
theorem accept_next {s t : State} {body : State → State} (h : accept body s = .next t) :
    s.Accepts ∧ t = body { s with eng := { s.eng with busy := true, seq := 0 } } := by
  unfold accept at h
  split at h
  · next hw =>
    split at h
    · cases h
    · next hb => cases h; exact ⟨⟨hw, by simpa using hb⟩, rfl⟩
  · cases h

end Sys2Proof.Machine
end

