-- ==== Sys2Proof/Laws/Frames.lean ====
section
/-! SUPPORT. The lines of a frame: what a signal, a union of signals and a mask show at each position. -/

namespace Sys2Proof.Machine

/-- A signal shows on its own line and on no other. -/
theorem line_signal (level : Bool) (i j : Fin 8) : line (signal level i) j = (level && decide (j = i)) := by
  revert level i j
  decide

theorem line_or (f g : Frame) (j : Fin 8) : line (f ||| g) j = (line f j || line g j) := by
  simp [line]

/-- A frame without a masked line. -/
theorem line_and_not_mask (f : Frame) (i j : Fin 8) :
    line (f &&& ~~~(maskOf i)) j = (line f j && decide (j ≠ i)) := by
  have h : ∀ i j : Fin 8, line (~~~(maskOf i)) j = decide (j ≠ i) := by decide
  rw [← h i j]
  simp [line]

/-- Two frames are equal when their eight lines are. -/
theorem frame_ext {f g : Frame} (h : ∀ j : Fin 8, line f j = line g j) : f = g := by
  apply BitVec.eq_of_getLsbD_eq
  intro i hi
  exact h ⟨i, hi⟩

/-- R70, R111: the two frames of a nibble hold every line but E. -/
theorem heldLines_frame (c : Config) (n : Nibble) (rs blv : Bool) :
    heldLines c (frame c n rs blv true) = heldLines c (frame c n rs blv false) := by
  apply frame_ext
  intro j
  simp only [heldLines, line_and_not_mask, frame, line_or, line_signal]
  by_cases hj : j = c.pinmap.e <;> simp [hj]

/-- R8 cfg_pinmap: a well-formed configuration's pin map puts its eight signals on different lines. -/
theorem pinmap_nodup {c : Config} (h : c.wf = true) : c.pinmap.positions.Nodup := by
  simp only [Config.wf, Config.cfgPinmap, Bool.and_eq_true, decide_eq_true_eq] at h
  exact h.1.1.2

/-- R8 cfg_times. -/
theorem times_of_wf {c : Config} (h : c.wf = true) :
    40000 ≤ c.tPowerOn ∧ 4100 ≤ c.tBoot1 ∧ 100 ≤ c.tBoot2 ∧ 100 ≤ c.tBoot3 ∧ 37 ≤ c.tCmd ∧
      1520 ≤ c.tClear ∧ 1520 ≤ c.tHome := by
  simp only [Config.wf, Config.cfgTimes, Bool.and_eq_true, decide_eq_true_eq] at h
  obtain ⟨-, ⟨⟨⟨⟨⟨h1, h2⟩, h3⟩, h4⟩, h5⟩, h6⟩, h7⟩ := h
  exact ⟨h1, h2, h3, h4, h5, h6, h7⟩

end Sys2Proof.Machine
end

