-- ==== Sys2Proof/Laws/Memory.lean ====
section
/-! SUPPORT. The laws of the controller's memories: what a write and a blanking leave, and that both keep
the canonical form. -/

namespace Sys2Proof.Machine

theorem Memory.wfFrom_mono {m : Memory} {lo hi : Nat} (h : lo ≤ hi) (hm : m.wfFrom hi = true) :
    m.wfFrom lo = true := by
  cases m with
  | nil => rfl
  | cons c m =>
    obtain ⟨a, v⟩ := c
    simp only [Memory.wfFrom, Bool.and_eq_true, decide_eq_true_eq] at hm ⊢
    exact ⟨⟨by omega, hm.1.2⟩, hm.2⟩

/-- An address below the list's range reads as unlisted. -/
theorem Memory.read_below {m : Memory} {lo x : Nat} (hm : m.wfFrom lo = true) (h : x < lo) :
    m.read x = Memory.unlisted := by
  induction m generalizing lo with
  | nil => rfl
  | cons c m ih =>
    obtain ⟨a, v⟩ := c
    simp only [Memory.wfFrom, Bool.and_eq_true, decide_eq_true_eq] at hm
    rw [Memory.read, if_neg (by omega)]
    exact ih hm.2 (by omega)

theorem Memory.read_cons {m : Memory} {a : Nat} (v : Byte) (hm : m.wfFrom (a + 1) = true) (x : Nat) :
    (Memory.cons a v m).read x = if x = a then v else m.read x := by
  unfold Memory.cons
  split
  · next hv =>
    split
    · next hx => rw [hv, Memory.read_below hm (by omega)]
    · rfl
  · rfl

theorem Memory.cons_wfFrom {m : Memory} {lo a : Nat} (v : Byte) (h : lo ≤ a)
    (hm : m.wfFrom (a + 1) = true) : (Memory.cons a v m).wfFrom lo = true := by
  unfold Memory.cons
  split
  · exact Memory.wfFrom_mono (by omega) hm
  · next hv => simp [Memory.wfFrom, h, hm, hv]

/-- A read after a write, in a canonical memory: the byte written at its own address, the old byte at any
other. -/
theorem Memory.read_write {m : Memory} {lo : Nat} (hm : m.wfFrom lo = true) (a : Nat) (v : Byte) (x : Nat) :
    (m.write a v).read x = if x = a then v else m.read x := by
  induction m generalizing lo with
  | nil => exact Memory.read_cons v rfl x
  | cons c m ih =>
    obtain ⟨b, w⟩ := c
    have hm' := hm
    simp only [Memory.wfFrom, Bool.and_eq_true, decide_eq_true_eq] at hm'
    rw [Memory.write]
    split
    · next hab =>
      have : Memory.wfFrom (a + 1) ((b, w) :: m) = true := by
        simp only [Memory.wfFrom, Bool.and_eq_true, decide_eq_true_eq]
        exact ⟨⟨by omega, hm'.1.2⟩, hm'.2⟩
      exact Memory.read_cons v this x
    · split
      · next hab =>
        subst hab
        rw [Memory.read_cons v hm'.2 x, Memory.read]
        split <;> rfl
      · rw [Memory.read, Memory.read, ih hm'.2]
        split
        · rw [if_neg (by omega)]
        · rfl

theorem Memory.write_wfFrom {m : Memory} {lo a : Nat} (hm : m.wfFrom lo = true) (h : lo ≤ a) (v : Byte) :
    (m.write a v).wfFrom lo = true := by
  induction m generalizing lo with
  | nil => exact Memory.cons_wfFrom v h rfl
  | cons c m ih =>
    obtain ⟨b, w⟩ := c
    have hm' := hm
    simp only [Memory.wfFrom, Bool.and_eq_true, decide_eq_true_eq] at hm'
    rw [Memory.write]
    split
    · next hab =>
      refine Memory.cons_wfFrom v h ?_
      simp only [Memory.wfFrom, Bool.and_eq_true, decide_eq_true_eq]
      exact ⟨⟨by omega, hm'.1.2⟩, hm'.2⟩
    · split
      · next hab => subst hab; exact Memory.cons_wfFrom v h hm'.2
      · simp only [Memory.wfFrom, Bool.and_eq_true, decide_eq_true_eq]
        exact ⟨hm'.1, ih hm'.2 (by omega)⟩

/-- A write keeps the canonical form. -/
theorem Memory.write_wf {m : Memory} (hm : m.wf = true) (a : Nat) (v : Byte) : (m.write a v).wf = true :=
  Memory.write_wfFrom hm (Nat.zero_le a) v

theorem Memory.cons_inRange {m : Memory} {size a : Nat} (v : Byte) (ha : a < size)
    (hm : m.inRange size = true) : (Memory.cons a v m).inRange size = true := by
  unfold Memory.cons
  split
  · exact hm
  · simpa [Memory.inRange, ha] using hm

/-- A write inside a size keeps every listed address inside it. -/
theorem Memory.write_inRange {m : Memory} {size a : Nat} (v : Byte) (ha : a < size)
    (hm : m.inRange size = true) : (m.write a v).inRange size = true := by
  induction m with
  | nil => exact Memory.cons_inRange v ha rfl
  | cons c m ih =>
    obtain ⟨b, w⟩ := c
    have hm' : b < size ∧ Memory.inRange size m = true := by simpa [Memory.inRange] using hm
    rw [Memory.write]
    split
    · exact Memory.cons_inRange v ha hm
    · split
      · exact Memory.cons_inRange v ha hm'.2
      · have := ih hm'.2
        simp only [Memory.inRange, List.all_cons, Bool.and_eq_true, decide_eq_true_eq] at this ⊢
        exact ⟨hm'.1, this⟩

theorem Memory.blankWhere_wfFrom {m : Memory} {lo : Nat} (p : Nat → Bool) (hm : m.wfFrom lo = true) :
    (m.blankWhere p).wfFrom lo = true := by
  induction m generalizing lo with
  | nil => rfl
  | cons c m ih =>
    obtain ⟨a, v⟩ := c
    simp only [Memory.wfFrom, Bool.and_eq_true, decide_eq_true_eq] at hm
    have hrest := ih hm.2
    unfold Memory.blankWhere at hrest ⊢
    rw [List.filter_cons]
    split
    · simp only [Memory.wfFrom, Bool.and_eq_true, decide_eq_true_eq]
      exact ⟨hm.1, hrest⟩
    · exact Memory.wfFrom_mono (by omega) hrest

/-- Blanking keeps the canonical form. -/
theorem Memory.blankWhere_wf {m : Memory} (hm : m.wf = true) (p : Nat → Bool) :
    (m.blankWhere p).wf = true := Memory.blankWhere_wfFrom p hm

/-- A read after a blanking: the blank where it reaches, the old byte elsewhere. -/
theorem Memory.read_blankWhere (m : Memory) (p : Nat → Bool) (x : Nat) :
    (m.blankWhere p).read x = if p x then Memory.unlisted else m.read x := by
  induction m with
  | nil => simp [Memory.blankWhere, Memory.read]
  | cons c m ih =>
    obtain ⟨a, v⟩ := c
    unfold Memory.blankWhere at ih ⊢
    rw [List.filter_cons]
    by_cases hx : x = a
    · subst hx
      by_cases hp : p x = true <;> simp_all [Memory.read]
    · by_cases hp : p a = true <;> simp_all [Memory.read]

theorem Memory.blankWhere_inRange {m : Memory} {size : Nat} (p : Nat → Bool)
    (hm : m.inRange size = true) : (m.blankWhere p).inRange size = true := by
  simp only [Memory.inRange, Memory.blankWhere, List.all_eq_true, List.mem_filter] at hm ⊢
  exact fun c hc => hm c hc.1

theorem Memory.fill_wfFrom (f : Nat → Byte) (count lo : Nat) : (Memory.fill f count lo).wfFrom lo = true := by
  induction count generalizing lo with
  | zero => rfl
  | succ n ih => exact Memory.cons_wfFrom _ (Nat.le_refl _) (ih (lo + 1))

/-- A filled memory is in canonical form. -/
theorem Memory.fill_wf (f : Nat → Byte) (count lo : Nat) : (Memory.fill f count lo).wf = true :=
  Memory.wfFrom_mono (Nat.zero_le lo) (Memory.fill_wfFrom f count lo)

/-- A filled memory lists no address past its cells. -/
theorem Memory.fill_inRange {f : Nat → Byte} {count lo size : Nat} (h : lo + count ≤ size) :
    (Memory.fill f count lo).inRange size = true := by
  induction count generalizing lo with
  | zero => rfl
  | succ n ih => exact Memory.cons_inRange _ (by omega) (ih (by omega))

/-- A read of a filled memory: the byte filled in at its cells, the unlisted byte elsewhere. -/
theorem Memory.read_fill (f : Nat → Byte) (count lo x : Nat) :
    (Memory.fill f count lo).read x = if lo ≤ x ∧ x < lo + count then f x else Memory.unlisted := by
  induction count generalizing lo with
  | zero => rw [if_neg (by omega)]; rfl
  | succ n ih =>
    rw [Memory.fill, Memory.read_cons _ (Memory.fill_wfFrom f n (lo + 1)), ih]
    by_cases hx : x = lo
    · subst hx; simp
    · rw [if_neg hx]
      congr 1
      exact propext ⟨fun h => by omega, fun h => by omega⟩

end Sys2Proof.Machine
end

