-- ==== Sys2Proof/Laws/Controller.lean ====
section
/-! SUPPORT. What the controller's operations keep: the latch, which only a bus write moves, and the canonical
form of the two memories. -/

namespace Sys2Proof.Machine

/-- R107: both memories are in canonical form, with addresses of 7 and of 6 bits. -/
def Observer.MemoriesWf (o : Observer) : Prop :=
  o.ddram.wf = true ∧ o.ddram.inRange 128 = true ∧ o.cgram.wf = true ∧ o.cgram.inRange 64 = true

/-! ### The latch -/

theorem runWord_latch (i : Instr) (o : Observer) : (o.runWord i).latch = o.latch := by
  cases i <;> simp only [Observer.runWord, Observer.clearDisplay, Observer.returnHome, Observer.entryModeSet,
    Observer.displayControl, Observer.cursorDisplayShift, Observer.functionSet, Observer.setCgramAddr,
    Observer.setDdramAddr, Observer.noInstruction, Observer.refuseRead, Observer.writeData, Observer.drawRest]
  · split <;> rfl
  · split <;> rfl
  · cases o.space <;> rfl

/-- R116: a word does not read the latch. -/
theorem execute_latch (v : Byte) (rs : Bool) (o : Observer) (f : Frame) :
    ({ o with latch := f } : Observer).execute v rs = { o.execute v rs with latch := f } := by
  unfold Observer.execute
  generalize decodeWord (wordOf v rs) = i
  cases i <;> simp only [Observer.runWord, Observer.clearDisplay, Observer.returnHome, Observer.entryModeSet,
    Observer.displayControl, Observer.cursorDisplayShift, Observer.functionSet, Observer.setCgramAddr,
    Observer.setDdramAddr, Observer.noInstruction, Observer.refuseRead, Observer.writeData,
    Observer.storeDdram, Observer.drawValue, Observer.drawRest]
  · split <;> rfl
  · split <;> rfl
  · cases o.space <;> rfl

theorem takeNibble_latch (n : Nibble) (rs : Bool) (o : Observer) : (o.takeNibble n rs).latch = o.latch := by
  unfold Observer.takeNibble
  split
  · exact runWord_latch _ _
  · rfl
  · split <;> exact runWord_latch _ _

/-- R108: the latch holds the value written, whatever the edge rule does. -/
theorem latchTo_latch (c : Config) (v : Frame) (o : Observer) : (o.latchTo c v).latch = v := by
  unfold Observer.latchTo
  split
  · unfold Observer.fallingEdge
    split
    · rfl
    · split
      · rfl
      · split
        · rfl
        · exact takeNibble_latch _ _ _
  · rfl

/-! ### The memories -/

theorem runWord_memories (i : Instr) {o : Observer} (h : o.MemoriesWf) : (o.runWord i).MemoriesWf := by
  obtain ⟨h1, h2, h3, h4⟩ := h
  cases i <;> simp only [Observer.runWord, Observer.clearDisplay, Observer.returnHome, Observer.entryModeSet,
    Observer.displayControl, Observer.cursorDisplayShift, Observer.functionSet, Observer.setCgramAddr,
    Observer.setDdramAddr, Observer.noInstruction, Observer.refuseRead, Observer.writeData]
  case clearDisplay => exact ⟨Memory.blankWhere_wf h1 _, Memory.blankWhere_inRange _ h2, h3, h4⟩
  case cursorDisplayShift => split <;> exact ⟨h1, h2, h3, h4⟩
  case setDdramAddr => split <;> exact ⟨h1, h2, h3, h4⟩
  case writeData v =>
    split
    · refine ⟨?_, ?_, h3, h4⟩ <;> simp only [Observer.storeDdram] <;> split
      · exact Memory.write_wf h1 _ _
      · exact h1
      · exact Memory.write_inRange _ o.ac.isLt h2
      · exact h2
    · exact ⟨h1, h2, Memory.write_wf h3 _ _, Memory.write_inRange _ (Nat.mod_lt _ (by decide)) h4⟩
  all_goals exact ⟨h1, h2, h3, h4⟩

theorem takeNibble_memories (n : Nibble) (rs : Bool) {o : Observer} (h : o.MemoriesWf) :
    (o.takeNibble n rs).MemoriesWf := by
  unfold Observer.takeNibble
  split
  · exact runWord_memories _ h
  · exact h
  · split <;> exact runWord_memories _ h

theorem latchTo_memories (c : Config) (v : Frame) {o : Observer} (h : o.MemoriesWf) :
    (o.latchTo c v).MemoriesWf := by
  unfold Observer.latchTo
  split
  · unfold Observer.fallingEdge
    split
    · exact h
    · split
      · exact h
      · split
        · exact h
        · exact takeNibble_memories _ _ h
  · exact h

/-- Every event keeps the memories' canonical form. -/
theorem take_memories (c : Config) (ev : Event) {o : Observer} (h : o.MemoriesWf) : (o.take c ev).MemoriesWf := by
  unfold Observer.take
  split
  · split
    · split
      · exact latchTo_memories _ _ h
      · exact h
    · split
      · unfold Observer.failedWrite
        split
        · exact latchTo_memories _ _ h
        · exact h
      · exact h
    · exact h
    · exact h
  · exact h

theorem takeAll_memories (c : Config) (evs : List Event) {o : Observer} (h : o.MemoriesWf) :
    (o.takeAll c evs).MemoriesWf := by
  induction evs generalizing o with
  | nil => exact h
  | cons e es ih => exact ih (take_memories c e h)

/-! ### An indeterminate controller -/

/-- The next draw is draw 0. -/
theorem drawAt_zero (o : Observer) : o.drawAt 0 = o.drawValue := by
  unfold Observer.drawAt Observer.drawValue
  cases o.draws <;> rfl

/-- Draws ahead are the same after other draws. -/
theorem drawAt_skipDraws (o : Observer) (j k : Nat) : (o.skipDraws j).drawAt k = o.drawAt (j + k) := by
  simp only [Observer.drawAt, Observer.skipDraws, List.getElem?_drop, Nat.add_assoc]

/-- R89, I23: what an indeterminate controller keeps to: canonical memories, and a shift below LLEN(n). -/
theorem indeterminate_bounds (o : Observer) : o.indeterminate.MemoriesWf ∧
    o.indeterminate.shift < llen o.indeterminate.n := by
  refine ⟨⟨Memory.fill_wf _ _ _, Memory.fill_inRange (by decide), Memory.fill_wf _ _ _,
    Memory.fill_inRange (by decide)⟩, Nat.mod_lt _ ?_⟩
  cases (o.drawAt 3).getLsbD 0 <;> decide

/-! ### A stopped observer -/

/-- R118: after a fault, or a refused read cycle, no event has an effect. -/
theorem take_stopped (c : Config) (ev : Event) {o : Observer} (h : o.running = false) : o.take c ev = o := by
  simp [Observer.take, h]

theorem takeAll_stopped (c : Config) (evs : List Event) {o : Observer} (h : o.running = false) :
    o.takeAll c evs = o := by
  induction evs with
  | nil => rfl
  | cons e es ih => rw [Observer.takeAll, take_stopped c e h]; exact ih

/-- R115, R118: what a controller that runs and is idle receives has its effect. -/
theorem atController_of_idle {s : State} (hr : s.obs.running = true) (hb : s.obs.busy = 0)
    (f : Observer → Observer) : atController f s = { s with obs := f s.obs } := by
  simp [atController, Observer.receive, hr, hb]

end Sys2Proof.Machine
end

