-- ==== Sys2Proof/Laws/PerInstr.lean ====
section
/-! SUPPORT. What holds of each instruction as syntax, one lemma for each constructor. -/

namespace Sys2Proof.Laws.RequestEncoding

open Sys2Proof

/-- R57, R63, R64, R71: the requests, and they alone, are written as lines, words as 10 bits and bootstrap
nibbles as 6; and a request gated on READY is a request. -/
def Statement (i : Instr) : Prop :=
  (i.isRequest = true ↔ ∃ cs, encode i = .line cs) ∧ (∀ j, encode i ≠ .request j) ∧
    (i.isGated = true → i.isRequest = true)

theorem clearDisplay : Statement .clearDisplay := by
  simp [Statement, Instr.isRequest, Instr.isGated, encode, encodeWord]

theorem returnHome (x : BitVec 1) : Statement (.returnHome x) := by
  simp [Statement, Instr.isRequest, Instr.isGated, encode, encodeWord]

theorem entryModeSet (inc sh : Bool) : Statement (.entryModeSet inc sh) := by
  simp [Statement, Instr.isRequest, Instr.isGated, encode, encodeWord]

theorem displayControl (d c b : Bool) : Statement (.displayControl d c b) := by
  simp [Statement, Instr.isRequest, Instr.isGated, encode, encodeWord]

theorem cursorDisplayShift (sc rl : Bool) (x : BitVec 2) : Statement (.cursorDisplayShift sc rl x) := by
  simp [Statement, Instr.isRequest, Instr.isGated, encode, encodeWord]

theorem functionSet (dl n f : Bool) (x : BitVec 2) : Statement (.functionSet dl n f x) := by
  simp [Statement, Instr.isRequest, Instr.isGated, encode, encodeWord]

theorem setCgramAddr (a : BitVec 6) : Statement (.setCgramAddr a) := by
  simp [Statement, Instr.isRequest, Instr.isGated, encode, encodeWord]

theorem setDdramAddr (a : BitVec 7) : Statement (.setDdramAddr a) := by
  simp [Statement, Instr.isRequest, Instr.isGated, encode, encodeWord]

theorem writeData (v : BitVec 8) : Statement (.writeData v) := by
  simp [Statement, Instr.isRequest, Instr.isGated, encode, encodeWord]

theorem noInstruction00 : Statement .noInstruction00 := by
  simp [Statement, Instr.isRequest, Instr.isGated, encode, encodeWord]

theorem readBusyAddr (x : BitVec 8) : Statement (.readBusyAddr x) := by
  simp [Statement, Instr.isRequest, Instr.isGated, encode, encodeWord]

theorem readData (x : BitVec 8) : Statement (.readData x) := by
  simp [Statement, Instr.isRequest, Instr.isGated, encode, encodeWord]

theorem bootNibble3 : Statement .bootNibble3 := by
  simp [Statement, Instr.isRequest, Instr.isGated, encode, encodeWord, encodeLine]

theorem bootNibble2 : Statement .bootNibble2 := by
  simp [Statement, Instr.isRequest, Instr.isGated, encode, encodeWord, encodeLine]

theorem init : Statement .init := by
  simp [Statement, Instr.isRequest, Instr.isGated, encode, encodeWord, encodeLine]

theorem clear : Statement .clear := by
  simp [Statement, Instr.isRequest, Instr.isGated, encode, encodeWord, encodeLine]

theorem home : Statement .home := by
  simp [Statement, Instr.isRequest, Instr.isGated, encode, encodeWord, encodeLine]

theorem setcur (line col : Nat) : Statement (.setcur line col) := by
  simp [Statement, Instr.isRequest, Instr.isGated, encode, encodeWord, encodeLine]

theorem putc (b : BitVec 8) : Statement (.putc b) := by
  simp [Statement, Instr.isRequest, Instr.isGated, encode, encodeWord, encodeLine]

theorem display (on : Bool) : Statement (.display on) := by
  simp [Statement, Instr.isRequest, Instr.isGated, encode, encodeWord, encodeLine]

theorem cursor (on : Bool) : Statement (.cursor on) := by
  simp [Statement, Instr.isRequest, Instr.isGated, encode, encodeWord, encodeLine]

theorem blink (on : Bool) : Statement (.blink on) := by
  simp [Statement, Instr.isRequest, Instr.isGated, encode, encodeWord, encodeLine]

theorem entry (inc sh : Bool) : Statement (.entry inc sh) := by
  simp [Statement, Instr.isRequest, Instr.isGated, encode, encodeWord, encodeLine]

theorem shift (sc rl : Bool) : Statement (.shift sc rl) := by
  simp [Statement, Instr.isRequest, Instr.isGated, encode, encodeWord, encodeLine]

theorem backlight (on : Bool) : Statement (.backlight on) := by
  simp [Statement, Instr.isRequest, Instr.isGated, encode, encodeWord, encodeLine]

theorem getbl : Statement .getbl := by
  simp [Statement, Instr.isRequest, Instr.isGated, encode, encodeWord, encodeLine]

theorem pread : Statement .pread := by
  simp [Statement, Instr.isRequest, Instr.isGated, encode, encodeWord, encodeLine]

end Sys2Proof.Laws.RequestEncoding
end

