-- ==== Sys2Proof/Tests/Slice0.lean ====
section
/-! SUPPORT. The model's own tests: ill-formed terms, decoding of words and lines written out from the spec,
the spec's own vectors (95_test_vectors.md, cited as V<n>), and a witness for the hypotheses of every
statement. -/

namespace Sys2Proof.Tests

open Sys2Proof Sys2Proof.Machine

/-! ### Helpers -/

/-- A transport answer: success, and a byte for a read. -/
def good : Answer := { ok := true, data := 0xC8#8 }

/-- A transport answer: failure. -/
def bad : Answer := { ok := false, data := 0#8 }

/-- The state SR of 95_test_vectors.md under a configuration, its observer as V12.2 gives it after INIT, with
the transport's next answers. -/
def readyFor (c : Config) (answers : List Answer) : State :=
  { State.resetFor c with
    eng := { Engine.reset c with fsm := .ready, ctrl := 0b100#3, entry := 0b10#2, shadow := 0xC8#8 }
    obs := { Observer.reset c with
      latch := 0xC8#8, ifmode := .fourHi, dl := false, d := true, n := fsN c, f := fsF c, busy := 0 }
    bus := { answers := answers, given := 0 } }

/-- SR under configuration D. -/
def ready (answers : List Answer) : State := readyFor configD answers

/-- SR with every one of the next forty transactions a success. -/
def ok40 : State := ready (List.replicate 40 good)

/-- S0 of 95_test_vectors.md, with the transport's next answers. -/
def fresh (answers : List Answer) : State :=
  { State.reset with bus := { answers := answers, given := 0 } }

/-- A state whose controller is idle in 4-bit mode: the start of the word tests. -/
def atWord (f : Observer → Observer) : State := { ok40 with obs := f ok40.obs }

/-- The next state of an instruction, if it has one. -/
def after (i : Instr) (s : State) : Option State :=
  match exec i s with
  | .next t => some t
  | .fault _ => none
  | .refused _ => none

/-- What an instruction shows on the port, and the engine after it as 95_test_vectors.md writes it: fsm bl
ctrl entry shadow sync_lost. -/
structure Seen where
  trace    : List Emission
  fsm      : Fsm
  bl       : Bool
  ctrl     : BitVec 3
  entry    : BitVec 2
  shadow   : Frame
  syncLost : Bool
  deriving DecidableEq, Repr

/-- What an instruction shows and leaves in the engine. -/
def seen (i : Instr) (s : State) : Option Seen :=
  (after i s).map fun t =>
    ⟨t.trace, t.eng.fsm, t.eng.bl, t.eng.ctrl, t.eng.entry, t.eng.shadow, t.eng.syncLost⟩

/-- A successful write of `f`. -/
def w (f : Frame) : Emission := .event (.busWrite 0x27#7 f true)

/-- A failed write of `f`. -/
def wBad (f : Frame) : Emission := .event (.busWrite 0x27#7 f false)

/-- A wait. -/
def wait (t : Nat) : Emission := .event (.wait t)

/-- A response without data. -/
def resp (c : Code) : Emission := .response c none

/-- The trace of one byte transfer that succeeds. -/
def sent (a b c d : Frame) (t : Nat) : List Emission := [w a, w b, w c, w d, wait t, resp .ok]

/-! ### Well-formedness (R8): each check refuses an ill-formed term -/

theorem test_wf_configD : configD.wf = true := by decide

theorem test_wf_lines : ({ configD with lines := 3 } : Config).cfgLines = false ∧
    ({ configD with lines := 3 } : Config).wf = false := by decide

theorem test_wf_columns : ({ configD with columns := 0 } : Config).cfgColumns = false ∧
    ({ configD with columns := 41 } : Config).cfgColumns = false ∧
    ({ configD with columns := 0 } : Config).wf = false := by decide

theorem test_wf_columns4 : (configOf 4 20 .wrap).wf = true ∧ (configOf 4 21 .wrap).wf = false := by decide

theorem test_wf_font : ({ configD with font := .f5x10 } : Config).cfgFont = false ∧
    ({ configD with font := .f5x10 } : Config).wf = false ∧
    ({ configOf 1 16 .wrap with font := .f5x10 } : Config).wf = true := by decide

theorem test_wf_pinmap :
    ({ configD with pinmap := { defaultPinMap with rw := 0 } } : Config).cfgPinmap = false ∧
    ({ configD with pinmap := { defaultPinMap with rw := 0 } } : Config).wf = false := by decide

theorem test_wf_lineStart : ({ configD with lineStart := [0#7] } : Config).cfgLineStart = false ∧
    ({ configD with lineStart := [0#7, 0x59#7] } : Config).cfgLineStart = false ∧
    ({ configD with lineStart := [0#7, 0x58#7] } : Config).wf = true ∧
    ({ configD with lineStart := [0#7, 0x20#7] } : Config).wf = false := by decide

theorem test_wf_times : ({ configD with tClear := 1000 } : Config).cfgTimes = false ∧
    ({ configD with tClear := 1000 } : Config).wf = false := by decide

theorem test_wf_minimums : ({ configD with tPowerOn := 40000, tCmd := 37, tClear := 1520, tHome := 1520 } : Config).wf
    = true := by decide

/-- R8: no request has a meaning under LINES = 3. -/
theorem test_refused_illFormed :
    exec .getbl (State.resetFor { configD with lines := 3 }) = .refused .illFormedConfig := rfl

/-- R68: the request port refuses what is no request. -/
theorem test_refused_notARequest :
    step { State.reset with inbox := [.request .clearDisplay] } = .refused (.undecodable .notARequest) := rfl

/-- R17: the port takes no request while one runs. -/
theorem test_refused_busy :
    exec .clear { ok40 with eng := { ok40.eng with busy := true } } = .refused .portBusy := rfl

/-! ### Decoding: words of R58, nibbles of R63, lines of R71, written out from their tables -/

theorem test_decode_clearDisplay : decodeWord 0b0000000001#10 = .clearDisplay := by decide

theorem test_decode_returnHome : decodeWord 0b0000000010#10 = .returnHome 0#1 := by decide

theorem test_decode_entryModeSet : decodeWord 0b0000000101#10 = .entryModeSet false true := by decide

theorem test_decode_displayControl : decodeWord 0b0000001100#10 = .displayControl true false false := by decide

theorem test_decode_cursorDisplayShift :
    decodeWord 0b0000010110#10 = .cursorDisplayShift false true 0b10#2 := by decide

theorem test_decode_functionSet : decodeWord 0b0000100101#10 = .functionSet false false true 0b01#2 := by decide

theorem test_decode_setCgramAddr : decodeWord 0b0001101010#10 = .setCgramAddr 0b101010#6 := by decide

theorem test_decode_setDdramAddr : decodeWord 0b0011001111#10 = .setDdramAddr 0x4F#7 := by decide

theorem test_decode_writeData : decodeWord 0b1000000001#10 = .writeData 1#8 := by decide

theorem test_decode_noInstruction00 : decodeWord 0b0000000000#10 = .noInstruction00 := by decide

theorem test_decode_readBusyAddr : decodeWord 0b0100000001#10 = .readBusyAddr 1#8 := by decide

theorem test_decode_readData : decodeWord 0b1110000000#10 = .readData 0x80#8 := by decide

theorem test_decode_nibbles : decodeNibble 0b000011#6 = .ok .bootNibble3 ∧
    decodeNibble 0b000010#6 = .ok .bootNibble2 ∧ decodeNibble 0b000001#6 = .reject .notABootNibble ∧
    decodeNibble 0b100011#6 = .reject .notABootNibble := by decide

theorem test_decode_line_plain : decodeLine ['I', 'N', 'I', 'T'] = .ok .init ∧
    decodeLine ['C', 'L', 'E', 'A', 'R', ' ', ';', 'x'] = .ok .clear ∧
    decodeLine ['H', 'O', 'M', 'E'] = .ok .home ∧ decodeLine ['G', 'E', 'T', 'B', 'L'] = .ok .getbl ∧
    decodeLine ['P', 'R', 'E', 'A', 'D'] = .ok .pread := by decide

theorem test_decode_line_setcur :
    decodeLine ['S', 'E', 'T', 'C', 'U', 'R', ' ', '1', ',', ' ', '1', '5'] = .ok (.setcur 1 15) := by decide

theorem test_decode_line_putc : decodeLine ['P', 'U', 'T', 'C', ' ', '0', 'x', '4', '1'] = .ok (.putc 0x41#8) ∧
    decodeLine ['P', 'U', 'T', 'C', ' ', '\'', 'i', '\''] = .ok (.putc 0x69#8) ∧
    decodeLine ['P', 'U', 'T', 'C', ' ', '2', '5', '6'] = .reject .byteOutOfRange := by decide

theorem test_decode_line_display :
    decodeLine ['D', 'I', 'S', 'P', 'L', 'A', 'Y', ' ', '0'] = .ok (.display false) := by decide

theorem test_decode_line_cursor : decodeLine ['C', 'U', 'R', 'S', 'O', 'R', ' ', '1'] = .ok (.cursor true) := by
  decide

theorem test_decode_line_blink : decodeLine ['B', 'L', 'I', 'N', 'K', ' ', '1'] = .ok (.blink true) := by decide

theorem test_decode_line_entry :
    decodeLine ['E', 'N', 'T', 'R', 'Y', ' ', '0', ',', ' ', '1'] = .ok (.entry false true) := by decide

theorem test_decode_line_shift :
    decodeLine ['S', 'H', 'I', 'F', 'T', ' ', '1', ',', ' ', '0'] = .ok (.shift true false) := by decide

theorem test_decode_line_backlight :
    decodeLine ['B', 'A', 'C', 'K', 'L', 'I', 'G', 'H', 'T', ' ', '0'] = .ok (.backlight false) := by decide

theorem test_decode_line_rejects : decodeLine [] = .reject .noRequest ∧
    decodeLine ['W', 'R', 'I', 'T', 'E'] = .reject .unknownMnemonic ∧
    decodeLine ['S', 'E', 'T', 'C', 'U', 'R', ' ', '1'] = .reject .badOperands ∧
    decodeLine ['B', 'L', 'I', 'N', 'K', ' ', '2'] = .reject .badOperands := by decide

theorem test_decodeTableWord : decodeTableWord 16 0x241 = some (.writeData 0x41#8) ∧
    decodeTableWord 8 0x03 = some .bootNibble3 ∧ decodeTableWord 16 0x400 = none ∧
    decodeTableWord 0 0 = none := by decide

/-- The first step after reset runs the word placed for it, at a listening controller (log entry 10). -/
theorem test_withFetchWord :
    step (State.reset.withFetchWord 16 0x0C)
      = exec (.displayControl true false false) { State.reset with obs := State.reset.obs.listening } ∧
    ((after (.displayControl true false false) { State.reset with obs := State.reset.obs.listening }).map fun t =>
      (t.obs.d, t.obs.busy, t.obs.fault)) = some (true, 37, .none) :=
  ⟨rfl, by decide⟩

/-! ### Frames and the encoder (V1, V2) -/

/-- The pin map of V1.8. -/
def otherPins : Config :=
  { configD with pinmap := { rs := 4, rw := 5, e := 6, bl := 7, d4 := 0, d5 := 1, d6 := 2, d7 := 3 } }

theorem test_frame : frame configD 0x4#4 true true true = 0x4D#8 ∧ frame configD 0xF#4 true true true = 0xFD#8 ∧
    frame { configD with blActiveHigh := false } 0x4#4 true true true = 0x45#8 ∧
    frame otherPins 0x4#4 true true true = 0xD4#8 := by decide

theorem test_encodeFrames : encodeFrames configD 0x41#8 .data true = [0x4D#8, 0x49#8, 0x1D#8, 0x19#8] ∧
    encodeFrames otherPins 0x41#8 .data true = [0xD4#8, 0x94#8, 0xD1#8, 0x91#8] ∧
    encodeFrames configD 0x0F#8 .instruction false = [0x04#8, 0x00#8, 0xF4#8, 0xF0#8] := by decide

/-! ### The requests (V5 to V9) -/

/-- V6.1. -/
theorem test_init : seen .init (fresh (List.replicate 28 good)) = some
    ⟨[wait 50000, w 0x3C#8, w 0x38#8, wait 4100, w 0x3C#8, w 0x38#8, wait 100, w 0x3C#8, w 0x38#8, wait 100,
      w 0x2C#8, w 0x28#8, wait 50, w 0x2C#8, w 0x28#8, w 0x8C#8, w 0x88#8, wait 50, w 0x0C#8, w 0x08#8, w 0x8C#8,
      w 0x88#8, wait 50, w 0x0C#8, w 0x08#8, w 0x1C#8, w 0x18#8, wait 2000, w 0x0C#8, w 0x08#8, w 0x6C#8, w 0x68#8,
      wait 50, w 0x0C#8, w 0x08#8, w 0xCC#8, w 0xC8#8, wait 50, resp .ok],
      .ready, true, 0b100#3, 0b10#2, 0xC8#8, false⟩ := by decide

/-- V6.9. -/
theorem test_init_busError : seen .init (fresh [good, bad]) = some
    ⟨[wait 50000, w 0x3C#8, wBad 0x38#8, resp .busError], .uninit, true, 0b100#3, 0b10#2, 0x3C#8, true⟩ := by
  decide

/-- R89, I23: after a failed INIT the controller's fields are draws, whatever its events did. -/
theorem test_init_indeterminate :
    ((after .init { fresh [bad] with obs := { (fresh [bad]).obs with
        draws := [0x00#8, 0x95#8, 0x91#8, 0x7D#8] } }).map fun t =>
      (t.obs.ifmode, t.obs.ac, t.obs.space, t.obs.id)) = some (.fourLo 0x5#4 true, 0x11#7, .cg, false) := by
  decide

/-- R72: a text longer than a line, truncated. -/
theorem test_writeLine_truncate :
    FacadeCall.expand (configOf 4 2 .truncate) (.writeLine [0x41#8, 0x42#8, 0x43#8] 3)
      = [.setcur 3 0, .putc 0x41#8, .putc 0x42#8] := by decide

/-- V7.1. -/
theorem test_clear : seen .clear ok40 = some
    ⟨sent 0x0C#8 0x08#8 0x1C#8 0x18#8 2000, .ready, true, 0b100#3, 0b10#2, 0x18#8, false⟩ := by decide

/-- V8.1. -/
theorem test_clear_uninit : seen .clear (fresh []) = some
    ⟨[resp .notInitialized], .uninit, true, 0b000#3, 0b00#2, 0x00#8, false⟩ := by decide

/-- V7.2. -/
theorem test_home : seen .home ok40 = some
    ⟨sent 0x0C#8 0x08#8 0x2C#8 0x28#8 2000, .ready, true, 0b100#3, 0b10#2, 0x28#8, false⟩ := by decide

/-- V9.5: on a 4 x 20 display. -/
theorem test_setcur : seen (.setcur 3 19) (readyFor (configOf 4 20 .wrap) (List.replicate 4 good)) = some
    ⟨sent 0xEC#8 0xE8#8 0x7C#8 0x78#8 50, .ready, true, 0b100#3, 0b10#2, 0x78#8, false⟩ := by decide

/-- V7.8, V7.9: the bounds are strict. -/
theorem test_setcur_outOfBounds : seen (.setcur 0 16) (ready []) = some
    ⟨[resp .outOfBounds], .ready, true, 0b100#3, 0b10#2, 0xC8#8, false⟩ ∧
    seen (.setcur 2 0) (ready []) = some
    ⟨[resp .outOfBounds], .ready, true, 0b100#3, 0b10#2, 0xC8#8, false⟩ := by decide

/-- V7.12. -/
theorem test_putc : seen (.putc 0x41#8) ok40 = some
    ⟨sent 0x4D#8 0x49#8 0x1D#8 0x19#8 50, .ready, true, 0b100#3, 0b10#2, 0x19#8, false⟩ := by decide

/-- V4.2. -/
theorem test_putc_busError : seen (.putc 0x41#8) (ready [good, bad]) = some
    ⟨[w 0x4D#8, wBad 0x49#8, resp .busError], .ready, true, 0b100#3, 0b10#2, 0x4D#8, true⟩ := by decide

/-- V7.16. -/
theorem test_display : seen (.display false) ok40 = some
    ⟨sent 0x0C#8 0x08#8 0x8C#8 0x88#8 50, .ready, true, 0b000#3, 0b10#2, 0x88#8, false⟩ := by decide

/-- V7.18. -/
theorem test_cursor : seen (.cursor true) ok40 = some
    ⟨sent 0x0C#8 0x08#8 0xEC#8 0xE8#8 50, .ready, true, 0b110#3, 0b10#2, 0xE8#8, false⟩ := by decide

/-- V7.20. -/
theorem test_blink : seen (.blink true) ok40 = some
    ⟨sent 0x0C#8 0x08#8 0xDC#8 0xD8#8 50, .ready, true, 0b101#3, 0b10#2, 0xD8#8, false⟩ := by decide

/-- V7.23. -/
theorem test_entry : seen (.entry false true) ok40 = some
    ⟨sent 0x0C#8 0x08#8 0x5C#8 0x58#8 50, .ready, true, 0b100#3, 0b01#2, 0x58#8, false⟩ := by decide

/-- V7.28. -/
theorem test_shift : seen (.shift true false) ok40 = some
    ⟨sent 0x1C#8 0x18#8 0x8C#8 0x88#8 50, .ready, true, 0b100#3, 0b10#2, 0x88#8, false⟩ := by decide

/-- V7.30. -/
theorem test_backlight : seen (.backlight false) ok40 = some
    ⟨[w 0xC0#8, resp .ok], .ready, false, 0b100#3, 0b10#2, 0xC0#8, false⟩ := by decide

/-- V5.5: the cache keeps the new value. -/
theorem test_backlight_busError : seen (.backlight false) (ready [bad]) = some
    ⟨[wBad 0xC0#8, resp .busError], .ready, false, 0b100#3, 0b10#2, 0xC8#8, true⟩ := by decide

/-- V8.4. -/
theorem test_getbl : seen .getbl (fresh []) = some
    ⟨[.response .ok (some 0x01#8)], .uninit, true, 0b000#3, 0b00#2, 0x00#8, false⟩ := by decide

/-- V7.33. -/
theorem test_pread : seen .pread ok40 = some
    ⟨[.event (.busRead 0x27#7 (some 0xC8#8)), .response .ok (some 0xC8#8)], .ready, true, 0b100#3, 0b10#2, 0xC8#8,
      false⟩ := by decide

/-- V7.35. -/
theorem test_pread_busError : seen .pread (ready [bad]) = some
    ⟨[.event (.busRead 0x27#7 none), resp .busError], .ready, true, 0b100#3, 0b10#2, 0xC8#8, true⟩ := by decide

/-! ### The controller (V12) -/

/-- V12.2: after CLEAR and PUTC 'A'. -/
theorem test_clear_then_putc : (((after .clear ok40).bind (after (.putc 0x41#8))).map fun t =>
    (t.obs.ddram, t.obs.ac, t.obs.latch, t.obs.fault, t.obs.ifmode)) =
    some ([(0, 0x41#8)], 0x01#7, 0x19#8, .none, .fourHi) := by decide

/-- V12.3, the last row: CLEAR's first nibble meets the data write's busy time. -/
theorem test_hazard_after_busError :
    (((after (.putc 0x41#8) { ready [good, good, good, bad, good, good, good, good] with
        obs := { (ready []).obs with draws := [1#8] } }).bind (after .clear)).map fun t =>
      (t.obs.ddram, t.obs.fault, t.eng.syncLost)) = some ([(0, 0x41#8)], .hazardBusy, true) := by decide

/-- V12.1, the row FOUR_LO(8, 1) that takes RS = 1: d83 i33 i20, to FOUR_HI with no fault. -/
theorem test_bootstrap_resynchronises :
    (let o := ({ Observer.reset configD with ifmode := .fourLo 0x8#4 true, space := .cg, draws := [0#8, 0#8] } :
        Observer).takeAll configD (bootstrapEvents configD true);
      (o.ifmode, o.fault, o.busy, o.cgram, o.dl)) = (.fourHi, .none, 0, [(0, 0x83#8)], false) := by decide

theorem test_clearDisplay : ((after .clearDisplay (atWord fun o =>
      { o with ddram := [(0, 0x41#8), (0x30, 1#8)], ac := 5#7, space := .cg, id := false, shift := 3 })).map fun t =>
    (t.obs.ddram, t.obs.ac, t.obs.space, t.obs.id, t.obs.shift, t.obs.busy)) =
    some ([(0x30, 1#8)], 0#7, .dd, true, 0, 1520) := by decide

/-- V12.9: home keeps DDRAM. -/
theorem test_returnHome : ((after (.returnHome 1#1) (atWord fun o =>
      { o with ddram := [(0, 0x41#8)], ac := 2#7, shift := 3 })).map fun t =>
    (t.obs.ddram, t.obs.ac, t.obs.shift, t.obs.busy)) = some ([(0, 0x41#8)], 0#7, 0, 1520) := by decide

theorem test_entryModeSet : ((after (.entryModeSet false true) (atWord id)).map fun t =>
    (t.obs.id, t.obs.s, t.obs.busy)) = some (false, true, 37) := by decide

theorem test_displayControl : ((after (.displayControl false true false) (atWord id)).map fun t =>
    (t.obs.d, t.obs.c, t.obs.b)) = some (false, true, false) := by decide

/-- V12.7. -/
theorem test_cursorDisplayShift : ((after (.cursorDisplayShift false false 0#2) (atWord id)).map fun t =>
    (t.obs.ac, t.obs.shift)) = some (0x67#7, 0) ∧
    ((after (.cursorDisplayShift true true 0#2) (atWord id)).map fun t => (t.obs.ac, t.obs.shift)) =
    some (0x00#7, 39) := by decide

theorem test_functionSet : ((after (.functionSet true false true 0#2) (atWord id)).map fun t =>
    (t.obs.dl, t.obs.n, t.obs.f, t.obs.ifmode)) = some (true, false, true, .eight) := by decide

theorem test_setCgramAddr : ((after (.setCgramAddr 0x3F#6) (atWord id)).map fun t => (t.obs.ac, t.obs.space)) =
    some (0x3F#7, .cg) := by decide

/-- R124: an address that does not exist gives one that does. -/
theorem test_setDdramAddr : ((after (.setDdramAddr 0x67#7) (atWord id)).map fun t => t.obs.ac) = some 0x67#7 ∧
    ((after (.setDdramAddr 0x30#7) (atWord fun o => { o with draws := [41#8] })).map fun t =>
      (validDdram t.obs.n t.obs.ac.toNat, t.obs.drawn)) = some (true, 1) := by decide

/-- V12.8: entry mode 0, 1. -/
theorem test_writeData : ((after (.writeData 0x61#8) (atWord fun o =>
      { o with ac := 5#7, id := false, s := true })).map fun t => (t.obs.ddram, t.obs.ac, t.obs.shift)) =
    some ([(5, 0x61#8)], 4#7, 39) := by decide

/-- R125: the CGRAM path wraps at 64, and 0x20 leaves no cell. -/
theorem test_writeData_cgram : ((after (.writeData 0x11#8) (atWord fun o =>
      { o with ac := 0x3F#7, space := .cg })).map fun t => (t.obs.cgram, t.obs.ac)) = some ([(63, 0x11#8)], 0#7) ∧
    ((after (.writeData 0x20#8) (atWord fun o => { o with ddram := [(0, 1#8)] })).map fun t => t.obs.ddram) =
    some [] := by decide

theorem test_noInstruction00 : ((after .noInstruction00 (atWord id)).map fun t => t.obs.fault) =
    some .undefInstr := by decide

/-- V12.1, the row FOUR_LO(0, 0): the first nibble 3 completes i03, Return home. -/
theorem test_bootNibble3 : ((after .bootNibble3 (atWord fun o =>
      { o with ifmode := .fourLo 0#4 false, ac := 9#7 })).map fun t => (t.obs.ifmode, t.obs.ac, t.obs.busy)) =
    some (.fourHi, 0#7, 1520) := by decide

/-- V12.1, the row EIGHT with the draw 0: i20. -/
theorem test_bootNibble2 : ((after .bootNibble2 (atWord fun o =>
      { o with ifmode := .eight, draws := [0#8] })).map fun t => (t.obs.ifmode, t.obs.dl, t.obs.n)) =
    some (.fourHi, false, false) := by decide

/-- R115. -/
theorem test_word_while_busy : ((after .clearDisplay State.reset).map fun t => t.obs.fault) =
    some .hazardBusy := by decide

/-- V12.6. -/
theorem test_acStep : acStep true 0x27#7 true = 0x40#7 ∧ acStep true 0x67#7 true = 0#7 ∧
    acStep false 0x4F#7 true = 0#7 ∧ acStep true 0#7 false = 0x67#7 := by decide

/-! ### Witnesses: for each statement with hypotheses, a state and operands that meet them together -/

/-- A busy port. -/
def portTaken : State := { ok40 with eng := { ok40.eng with busy := true } }

theorem witness_StepRunsTheDecodedInput :
    { ok40 with inbox := [.word 0b0000000001#10] }.inbox = .word 0b0000000001#10 :: [] ∧
    (Item.word 0b0000000001#10).decode = .ok .clearDisplay ∧ ok40.inbox = [] ∧
    { ok40 with inbox := [.line [';']] }.inbox = .line [';'] :: [] ∧ decodeLine [';'] = .reject .noRequest := by
  decide

theorem witness_OtherInputsAreRefusedByName :
    { ok40 with inbox := [.request .bootNibble2] }.inbox = .request .bootNibble2 :: [] ∧
    Instr.bootNibble2.isRequest = false ∧
    { ok40 with inbox := [.request .init] }.inbox = .request .init :: [] ∧ Instr.init.isRequest = true ∧
    { ok40 with inbox := [.nibble 0#6] }.inbox = .nibble 0#6 :: [] ∧
    (Item.nibble 0#6).decode = .reject .notABootNibble ∧ DecodeError.notABootNibble ≠ .noRequest := by decide

theorem witness_EveryWordHasOneMeaning :
    (0x01#8 &&& 0xFF#8 = 0x01#8 ∧ 0x03#8 &&& 0xFE#8 = 0x02#8 ∧ 0x07#8 &&& 0xFC#8 = 0x04#8 ∧
      0x0F#8 &&& 0xF8#8 = 0x08#8 ∧ 0x1F#8 &&& 0xF0#8 = 0x10#8 ∧ 0x3F#8 &&& 0xE0#8 = 0x20#8 ∧
      0x7F#8 &&& 0xC0#8 = 0x40#8 ∧ 0xFF#8 &&& 0x80#8 = 0x80#8 ∧ 0x00#8 &&& 0xFF#8 = 0x00#8) := by decide

theorem witness_ConfigWellFormedIffChecks : Instr.isRequest .clear = true ∧
    (State.resetFor { configD with lines := 3 }).cfg.wf = false := by decide

theorem witness_PortTakesOneRequestAtATime : Instr.isRequest .clear = true ∧ portTaken.cfg.wf = true ∧
    portTaken.eng.busy = true := by decide

theorem witness_FrameLinesCarryTheirSignals : otherPins.wf = true := by decide

theorem witness_EncoderLaws : configD.wf = true := by decide

/-- The hypotheses of the results of CLEAR, HOME, PUTC, DISPLAY, CURSOR, BLINK, ENTRY and SHIFT. -/
theorem witness_ByteRequestResults : ok40.Accepts ∧ ok40.eng.fsm = .ready ∧ ok40.BusOk 4 := by decide

theorem witness_ClearResult : ok40.Accepts ∧ ok40.eng.fsm = .ready ∧ ok40.BusOk 4 := witness_ByteRequestResults

theorem witness_HomeResult : ok40.Accepts ∧ ok40.eng.fsm = .ready ∧ ok40.BusOk 4 := witness_ByteRequestResults

theorem witness_SetcurResult : (ok40.Accepts ∧ ok40.eng.fsm = .ready ∧ ok40.BusOk 4) ∧
    (0 < ok40.cfg.lines ∧ 0 < ok40.cfg.columns) ∧ 1 < ok40.cfg.lines ∧ 15 < ok40.cfg.columns :=
  ⟨witness_ByteRequestResults, by decide, by decide, by decide⟩

theorem witness_PutcResult : ok40.Accepts ∧ ok40.eng.fsm = .ready ∧ ok40.BusOk 4 := witness_ByteRequestResults

theorem witness_DisplayResult : ok40.Accepts ∧ ok40.eng.fsm = .ready ∧ ok40.BusOk 4 := witness_ByteRequestResults

theorem witness_CursorResult : ok40.Accepts ∧ ok40.eng.fsm = .ready ∧ ok40.BusOk 4 := witness_ByteRequestResults

theorem witness_BlinkResult : ok40.Accepts ∧ ok40.eng.fsm = .ready ∧ ok40.BusOk 4 := witness_ByteRequestResults

theorem witness_EntryResult : ok40.Accepts ∧ ok40.eng.fsm = .ready ∧ ok40.BusOk 4 := witness_ByteRequestResults

theorem witness_ShiftResult : ok40.Accepts ∧ ok40.eng.fsm = .ready ∧ ok40.BusOk 4 := witness_ByteRequestResults

theorem witness_BacklightResult : ok40.Accepts ∧ ok40.eng.fsm = .ready ∧ ok40.BusOk 1 ∧
    (ready [bad]).Accepts ∧ (ready [bad]).eng.fsm = .ready ∧ (ready [bad]).BusFailsAt 0 := by decide

theorem witness_GetblResult : State.reset.Accepts := by decide

theorem witness_PreadResult : (fresh [good]).Accepts ∧ (fresh [good]).BusOk 1 ∧ (fresh [bad]).Accepts ∧
    (fresh [bad]).BusFailsAt 0 := by decide

theorem witness_InitResult : (fresh (List.replicate 28 good)).Accepts ∧
    (fresh (List.replicate 28 good)).BusOk 28 := by decide

theorem witness_InitBusErrorResult : (fresh [bad]).Accepts ∧ 0 < 28 ∧ (fresh [bad]).BusFailsAt 0 ∧
    (fresh (List.replicate 27 good ++ [bad])).Accepts ∧ 27 < 28 ∧
    (fresh (List.replicate 27 good ++ [bad])).BusFailsAt 27 := by decide

theorem witness_TransferBusErrorResult :
    ((ready [bad]).Accepts ∧ (ready [bad]).eng.fsm = .ready ∧ (ready [bad]).BusFailsAt 0 ∧
      byteTransfer (ready [bad]) .clear = some ((ready [bad]).eng, 0x01#8, .instruction, 2000)) ∧
    ((ready [good, good, good, bad]).BusFailsAt 3 ∧
      byteTransfer (ready [good, good, good, bad]) (.setcur 1 15)
        = some ((ready []).eng, 0xCF#8, .instruction, 50)) := by decide

theorem witness_GateFailsFast : State.reset.Accepts ∧ Instr.isGated (.backlight true) = true ∧
    State.reset.eng.fsm ≠ .ready := by decide

theorem witness_SetcurOutOfBounds : ok40.Accepts ∧ ok40.eng.fsm = .ready ∧ ok40.cfg.lines ≤ 2 ∧
    ok40.cfg.columns ≤ 16 := by decide

theorem witness_OneResponseEndsEachRequest : (fresh [bad]).Accepts ∧ Instr.isRequest .pread = true := by decide

theorem witness_RequestLengths : Instr.isRequest .clear = true ∧ ∃ t, exec .clear ok40 = .next t ∧
    t.trace = ok40.trace ++ (transferEvents configD true 0x01#8 .instruction 2000).map .event
      ++ [.response .ok none] :=
  ⟨rfl, _, rfl, by decide⟩

theorem witness_FsmMovesOnlyByInit : (∃ t, exec .init (fresh (List.replicate 28 good)) = .next t) ∧
    (∃ t, exec .init (fresh [bad]) = .next t) ∧ ∃ t, exec .clear ok40 = .next t :=
  ⟨⟨_, rfl⟩, ⟨_, rfl⟩, _, rfl⟩

theorem witness_RegistersWrittenOnlyAsTabled : (∃ t, exec .getbl ok40 = .next t) ∧
    (∃ t, exec .clearDisplay ok40 = .next t ∧ Instr.isRequest .clearDisplay = false) ∧
    (∃ t, exec .clear { ok40 with eng := { ok40.eng with syncLost := true } } = .next t) ∧
    ∃ t, exec .pread (ready [bad]) = .next t ∧ (ready [bad]).eng.syncLost = false ∧ t.eng.syncLost = true :=
  ⟨⟨_, rfl⟩, ⟨_, rfl, rfl⟩, ⟨_, rfl⟩, _, rfl, rfl, by decide⟩

theorem witness_EveryFrameKeepsRwAndBacklight : ok40.Inv ∧ ∃ t, exec (.backlight false) ok40 = .next t ∧
    t.trace = ok40.trace ++ [w 0xC0#8, resp .ok] ∧
    .event (.busWrite 0x27#7 0xC0#8 true) ∈ [w 0xC0#8, resp .ok] :=
  ⟨by decide, _, rfl, by decide, by decide⟩

theorem witness_SeqNamesTheMicroOperation : ok40.eng.seq = 0 ∧
    (∃ d t, runOps [.write 0x4D#8, .wait 50] none ok40 = .done d t) ∧
    ∃ t, runOps [.wait 50, .read] none (ready [bad]) = .busError t :=
  ⟨rfl, ⟨_, _, rfl⟩, _, rfl⟩

theorem witness_ObserverDoesNotSteerTheEngine : Instr.isRequest .clear = true ∧
    ∃ t, exec .clear ok40 = .next t :=
  ⟨rfl, _, rfl⟩

theorem witness_StepKeepsTheInvariant : ({ ok40 with inbox := [.request .clear] } : State).Inv ∧
    ∃ t, step { ok40 with inbox := [.request .clear] } = .next t :=
  ⟨by decide, _, rfl⟩

theorem witness_InvariantAtReset : (configOf 4 20 .truncate).wf = true := by decide

/-- The hypotheses of the statements about the controller's words. -/
theorem witness_Words : (atWord id).obs.running = true ∧ (atWord id).obs.busy = 0 ∧
    (atWord id).MemoriesWf := by decide

theorem witness_ClearDisplayWord : (atWord id).obs.running = true ∧ (atWord id).obs.busy = 0 := by decide

theorem witness_HomeEntryAndDisplayWords : (atWord id).obs.running = true ∧ (atWord id).obs.busy = 0 := by decide

theorem witness_ShiftWord : (atWord id).obs.running = true ∧ (atWord id).obs.busy = 0 := by decide

theorem witness_FunctionSetWord : (atWord id).obs.running = true ∧ (atWord id).obs.busy = 0 := by decide

theorem witness_SetAddressWords : ((atWord id).obs.running = true ∧ (atWord id).obs.busy = 0) ∧
    validDdram (atWord id).obs.n (0x27#7 : BitVec 7).toNat = true ∧
    validDdram (atWord id).obs.n (0x28#7 : BitVec 7).toNat = false := by decide

theorem witness_WriteDataWord :
    (let s := atWord fun o => { o with ac := 0x67#7 };
      s.obs.running = true ∧ s.obs.busy = 0 ∧ s.MemoriesWf ∧ s.obs.space = .dd ∧
        validDdram s.obs.n s.obs.ac.toNat = true) ∧
    (let s := atWord fun o => { o with ac := 0x3F#7, space := .cg };
      s.obs.running = true ∧ s.obs.busy = 0 ∧ s.MemoriesWf ∧ s.obs.space = .cg) := by decide

theorem witness_DataWriteAtMissingAddress :
    let s := atWord fun o => { o with ac := 0x28#7 }
    s.obs.running = true ∧ s.obs.busy = 0 ∧ s.obs.space = .dd ∧ validDdram s.obs.n s.obs.ac.toNat = false := by
  decide

theorem witness_UndefinedAndReadWords : (atWord id).obs.running = true ∧ (atWord id).obs.busy = 0 := by decide

theorem witness_BootNibbles :
    (let s := atWord fun o => { o with ifmode := .eight };
      s.obs.running = true ∧ s.obs.busy = 0 ∧ s.obs.ifmode = .eight) ∧
    (let s := atWord id;
      s.obs.running = true ∧ s.obs.busy = 0 ∧ s.obs.ifmode = .fourHi) ∧
    (let s := atWord fun o => { o with ifmode := .fourLo 0xF#4 false };
      s.obs.running = true ∧ s.obs.busy = 0 ∧ s.obs.ifmode = .fourLo 0xF#4 false) ∧
    (let s := atWord fun o => { o with ifmode := .fourLo 0x0#4 true };
      s.obs.running = true ∧ s.obs.busy = 0 ∧ s.obs.ifmode = .fourLo 0x0#4 true) := by decide

theorem witness_BusyOrStoppedController :
    (Instr.isRequest .bootNibble3 = false ∧ (∀ x, Instr.bootNibble3 ≠ .readBusyAddr x) ∧
      ∀ x, Instr.bootNibble3 ≠ .readData x) ∧
    ((atWord fun o => { o with busy := 1 }).obs.running = true ∧ 0 < (atWord fun o => { o with busy := 1 }).obs.busy) ∧
    (atWord fun o => { o with fault := .undefInstr }).obs.running = false := by
  refine ⟨⟨rfl, ?_, ?_⟩, by decide, by decide⟩ <;> intro x <;> simp

theorem witness_AddressCounterOrder : validDdram true (0x67#7 : BitVec 7).toNat = true ∧
    (0x67#7 : DdAddr) ≠ 0x40#7 := by decide

theorem witness_ObserverEventRules :
    (atWord fun o => { o with refused := true }).obs.running = false ∧ ok40.obs.running = true ∧
    line ok40.obs.latch configD.pinmap.e = false ∧ line (0x0C#8 : Frame) configD.pinmap.e = true := by decide

/-- For each clause of the edge rule: no edge, busy, data lines that change, RW high, and a nibble. -/
theorem witness_EdgeRule :
    (ok40.obs.running = true ∧ line ok40.obs.latch configD.pinmap.e = false ∧
      line (0x0C#8 : Frame) configD.pinmap.e = true) ∧
    (let o : Observer := { ok40.obs with latch := 0x4D#8, busy := 1 };
      o.running = true ∧ line o.latch configD.pinmap.e = true ∧ line (0x49#8 : Frame) configD.pinmap.e = false ∧
        0 < o.busy) ∧
    (let o : Observer := { ok40.obs with latch := 0x4D#8 };
      o.running = true ∧ o.busy = 0 ∧ line o.latch configD.pinmap.e = true ∧
        line (0x59#8 : Frame) configD.pinmap.e = false ∧
        ¬ ∀ i : Fin 8, i ≠ configD.pinmap.e → i ≠ configD.pinmap.bl → line o.latch i = line (0x59#8 : Frame) i) ∧
    (let o : Observer := { ok40.obs with latch := 0x4F#8 };
      o.running = true ∧ o.busy = 0 ∧ line o.latch configD.pinmap.e = true ∧
        line (0x4B#8 : Frame) configD.pinmap.e = false ∧ line o.latch configD.pinmap.rw = true ∧
        ∀ i : Fin 8, i ≠ configD.pinmap.e → i ≠ configD.pinmap.bl → line o.latch i = line (0x4B#8 : Frame) i) ∧
    (let o : Observer := { ok40.obs with latch := 0x4D#8 };
      line (0x41#8 : Frame) configD.pinmap.e = false ∧ line o.latch configD.pinmap.rw = false ∧
        ∀ i : Fin 8, i ≠ configD.pinmap.e → i ≠ configD.pinmap.bl → line o.latch i = line (0x41#8 : Frame) i) := by
  decide

theorem witness_ByteTransferExecutesItsWord : configD.wf = true ∧ ok40.obs.Aligned := by decide

theorem witness_BootstrapResynchronises : configD.wf = true ∧ (Observer.reset configD).running = true ∧
    (Observer.reset configD).busy ≤ configD.tPowerOn := by decide

theorem witness_InitEndsInStep :
    let s := fresh (List.replicate 28 good)
    s.Accepts ∧ s.BusOk 28 ∧ s.obs.running = true ∧ s.obs.busy ≤ s.cfg.tPowerOn := by decide

theorem witness_RequestsKeepInStep : ok40.Inv ∧ ok40.InStep ∧ Instr.isRequest (.shift true true) = true ∧
    ∃ t, exec (.shift true true) ok40 = .next t ∧ t.eng.syncLost = false :=
  ⟨by decide, by decide, rfl, _, rfl, by decide⟩

theorem witness_ClearThenWrite : ok40.Inv ∧ ok40.InStep ∧ ok40.BusOk 8 := by decide

theorem witness_ControlRoundTrip : ok40.Accepts ∧ ok40.eng.fsm = .ready ∧ ok40.BusOk 12 := by decide

/-- With the entry mirror at decrement, where the mirror and the controller part. -/
theorem witness_ClearLeavesTheEntryMirror :
    let s : State := { ok40 with eng := { ok40.eng with entry := 0b00#2 }, obs := { ok40.obs with id := false } }
    s.Inv ∧ s.InStep ∧ s.BusOk 4 := by decide

theorem witness_FacadeExpansions : (List.replicate 16 0x41#8).length ≤ configD.columns ∧
    configD.columns < (List.replicate 17 0x41#8).length ∧ configD.writeLinePolicy = .truncate ∧
    (configOf 2 16 .wrap).columns < (List.replicate 17 0x41#8).length ∧
    (configOf 2 16 .wrap).writeLinePolicy = .wrap ∧ 1 ≤ (configOf 2 16 .wrap).columns ∧
    Instr.setcur 9 0 ∈ FacadeCall.expand configD (.writeLine [] 9) := by decide

theorem witness_WordRowsAreExecute : (atWord id).obs.running = true ∧ (atWord id).obs.busy = 0 := by decide

/-- A first INIT whose first write fails, and then 28 successes. -/
def failsOnce : State :=
  { fresh (bad :: List.replicate 28 good) with obs := { Observer.reset configD with draws := [0#8], times := [1520] } }

theorem witness_InitRecoversFromAFailedInit :
    let s := failsOnce
    s.Accepts ∧ 0 < 28 ∧ s.BusFailsAt 0 ∧
      ∃ t, exec .init s = .next t ∧ t.obs.running = true ∧ t.obs.busy ≤ t.cfg.tPowerOn ∧ t.BusOk 28 :=
  ⟨by decide, by decide, by decide, _, rfl, by decide, by decide, by decide⟩

end Sys2Proof.Tests
end

section
/-! PROOFS. The request port (R8, R17): a request is a body, which runs once the port has accepted it, and the
port's answer is otherwise the same for every request. -/

namespace Sys2Proof.Machine

/-- What a request does once the port has accepted it (R87 to R104). The last arm is for the words and nibbles,
which do not reach the port. -/
def requestBody : Instr → State → State
  | .init => initBody
  | .clear => gated fun s => transfer clearByte .instruction s.cfg.tClear s
  | .home => gated fun s => transfer homeByte .instruction s.cfg.tHome s
  | .setcur line col => gated (setcurBody line col)
  | .putc b => gated fun s => transfer b .data s.cfg.tCmd s
  | .display on => gated fun s => sendCtrl (setCtrlD s.eng.ctrl on) s
  | .cursor on => gated fun s => sendCtrl (setCtrlC s.eng.ctrl on) s
  | .blink on => gated fun s => sendCtrl (setCtrlB s.eng.ctrl on) s
  | .entry inc sh => gated (entryBody inc sh)
  | .shift sc rl => gated fun s => transfer (shiftByte sc rl) .instruction s.cfg.tCmd s
  | .backlight on => gated (backlightBody on)
  | .getbl => fun s => respond .ok (some (b2u s.eng.bl)) s
  | .pread => perform [.read]
  | .clearDisplay | .returnHome _ | .entryModeSet _ _ | .displayControl _ _ _
  | .cursorDisplayShift _ _ _ | .functionSet _ _ _ _ | .setCgramAddr _ | .setDdramAddr _
  | .writeData _ | .noInstruction00 | .readBusyAddr _ | .readData _ | .bootNibble3
  | .bootNibble2 => id

/-- R64: a request is accepted, or not, and then runs its body. -/
theorem exec_of_isRequest {i : Instr} (h : i.isRequest = true) (s : State) :
    exec i s = accept (requestBody i) s := by
  cases i with
  | init | clear | home | setcur | putc | display | cursor | blink | entry | shift | backlight | getbl
  | pread => rfl
  | _ => cases h

/-- R8: no request has a meaning under an ill-formed configuration. -/
theorem accept_of_not_wf {s : State} (h : s.cfg.wf = false) (body : State → State) :
    accept body s = .refused .illFormedConfig := by
  simp [accept, h]

end Sys2Proof.Machine
end

section
/-! PROOFS. WF_CFG check by check (R8), each in the numbers of R7, R9 and R37. -/

namespace Sys2Proof

open Machine

/-- R9, R37: the addresses that exist on a display of one line, and of more. -/
theorem validDdram_fsN_iff {c : Config} (h : 1 ≤ c.lines) (a : Nat) :
    validDdram (fsN c) a = true ↔
      (c.lines = 1 ∧ a ≤ 0x4F) ∨ (1 < c.lines ∧ (a ≤ 0x27 ∨ (0x40 ≤ a ∧ a ≤ 0x67))) := by
  by_cases h1 : 1 < c.lines
  · have hne : c.lines ≠ 1 := by omega
    simp [validDdram, fsN, h1, hne]
  · have heq : c.lines = 1 := by omega
    simp [validDdram, fsN, heq]

/-- R8, R9: cfg_lines and cfg_columns together, with COLMAX of each line count. -/
theorem Config.cfgLines_and_cfgColumns_iff (c : Config) :
    (c.cfgLines = true ∧ c.cfgColumns = true) ↔
      (c.lines = 1 ∧ 1 ≤ c.columns ∧ c.columns ≤ 80) ∨ (c.lines = 2 ∧ 1 ≤ c.columns ∧ c.columns ≤ 40) ∨
        (c.lines = 4 ∧ 1 ≤ c.columns ∧ c.columns ≤ 20) := by
  simp only [Config.cfgLines, Config.cfgColumns, Bool.or_eq_true, Bool.and_eq_true, decide_eq_true_eq,
    or_and_right, or_assoc]
  -- Each disjunct fixes the line count, and with it COLMAX.
  refine or_congr ?_ (or_congr ?_ ?_) <;>
    exact and_congr_right fun h => by rw [h]; simp [colMax]

theorem Config.cfgFont_iff (c : Config) : c.cfgFont = true ↔ c.font = .f5x8 ∨ c.lines = 1 := by
  simp [Config.cfgFont]

theorem Config.cfgPinmap_iff (c : Config) : c.cfgPinmap = true ↔ c.pinmap.positions.Nodup :=
  decide_eq_true_iff

/-- R8, R37: cfg_line_start, on a display that has a line. -/
theorem Config.cfgLineStart_iff {c : Config} (h : 1 ≤ c.lines) :
    c.cfgLineStart = true ↔ c.lineStart.length = c.lines ∧ ∀ a ∈ c.lineStart, ∀ k, k < c.columns →
      (c.lines = 1 ∧ a.toNat + k ≤ 0x4F) ∨
        (1 < c.lines ∧ (a.toNat + k ≤ 0x27 ∨ (0x40 ≤ a.toNat + k ∧ a.toNat + k ≤ 0x67))) := by
  simp only [Config.cfgLineStart, Bool.and_eq_true, decide_eq_true_eq, List.all_eq_true, List.mem_range,
    validDdram_fsN_iff h]

theorem Config.cfgTimes_iff (c : Config) :
    c.cfgTimes = true ↔ 40000 ≤ c.tPowerOn ∧ 4100 ≤ c.tBoot1 ∧ 100 ≤ c.tBoot2 ∧ 100 ≤ c.tBoot3 ∧
      37 ≤ c.tCmd ∧ 1520 ≤ c.tClear ∧ 1520 ≤ c.tHome := by
  simp [Config.cfgTimes, and_assoc]

/-- R8: WF_CFG is the conjunction of its checks. -/
theorem Config.wf_iff (c : Config) :
    c.wf = true ↔ (c.cfgLines = true ∧ c.cfgColumns = true) ∧ c.cfgFont = true ∧ c.cfgPinmap = true ∧
      c.cfgLineStart = true ∧ c.cfgTimes = true := by
  simp [Config.wf, and_assoc]

/-- Settles O6, check by check; the line starts are read once the line count is known not to be 0. -/
theorem configWellFormedIffChecks : Obligations.ConfigWellFormedIffChecks := by
  refine ⟨fun c => ?_, fun i s hi hwf => ?_⟩
  · rw [Config.wf_iff, Config.cfgLines_and_cfgColumns_iff, Config.cfgFont_iff, Config.cfgPinmap_iff,
      Config.cfgTimes_iff]
    refine and_congr_right fun hlines => ?_
    have hpos : 1 ≤ c.lines := by omega
    rw [Config.cfgLineStart_iff hpos, and_assoc]
    rfl
  · rw [exec_of_isRequest hi, accept_of_not_wf hwf]

end Sys2Proof
end

section
/-! PROOFS. The observer steers nothing (R6, R26): with another observer in its place, every operation of a
request answers the same state in everything but the observer. -/

namespace Sys2Proof.Machine

/-- The outcome of micro-operations, with another observer in its state. -/
def Ran.withObs (o : Observer) : Ran → Ran
  | .done data s => .done data { s with obs := o }
  | .busError s => .busError { s with obs := o }

/-- R6: a request's body does the same under any observer, but for the observer it leaves. -/
def ObserverBlind (body : State → State) : Prop :=
  ∀ (s : State) (o : Observer), ∃ o', body { s with obs := o } = { body s with obs := o' }

/-! ### Micro-operations -/

/-- R39, R40, R81: whether a micro-operation completes, and all it does outside the observer, is chosen by the
engine, the configuration and the transport. -/
theorem runOp_withObs (op : MicroOp) (d : Option Byte) (s : State) (o : Observer) :
    ∃ o', runOp op d { s with obs := o } = (runOp op d s).withObs o' := by
  cases op with
  | write f =>
    simp only [runOp, portWrite]
    cases s.bus.answer.ok <;> exact ⟨_, rfl⟩
  | read =>
    simp only [runOp, portRead]
    cases readResult s.bus.answer <;> exact ⟨_, rfl⟩
  | wait t => exact ⟨_, rfl⟩

theorem runOps_withObs (ops : List MicroOp) (d : Option Byte) (s : State) (o : Observer) :
    ∃ o', runOps ops d { s with obs := o } = (runOps ops d s).withObs o' := by
  induction ops generalizing d s o with
  | nil => exact ⟨o, rfl⟩
  | cons op ops ih =>
    obtain ⟨o₁, h₁⟩ := runOp_withObs op d s o
    rw [runOps, runOps, h₁]
    cases runOp op d s with
    | done d' s' => exact ih d' s' o₁
    | busError s' => exact ⟨o₁, rfl⟩

/-! ### Bodies -/

theorem perform_observerBlind (ops : List MicroOp) : ObserverBlind (perform ops) := by
  intro s o
  obtain ⟨o', h⟩ := runOps_withObs ops none s o
  rw [perform, perform, h]
  cases runOps ops none s <;> exact ⟨o', rfl⟩

theorem initBody_observerBlind : ObserverBlind initBody := by
  intro s o
  obtain ⟨o', h⟩ := runOps_withObs (initOps s.cfg s.eng.bl) none (initBegin s) o
  change runOps _ none (initBegin { s with obs := o }) = _ at h
  simp only [initBody, h]
  cases runOps (initOps s.cfg s.eng.bl) none (initBegin s) with
  | done d t => exact ⟨o', rfl⟩
  | busError t => exact ⟨o'.indeterminate, rfl⟩

/-- The byte, the mode and the delay of a transfer are chosen from the configuration and the engine. -/
theorem transfer_observerBlind (v : Byte) (m : Mode) (t : Nat) : ObserverBlind (transfer v m t) :=
  fun s => perform_observerBlind (sendOps s.cfg s.eng.bl v m t) s

theorem sendCtrl_observerBlind (m : BitVec 3) : ObserverBlind (sendCtrl m) :=
  fun s => transfer_observerBlind _ _ s.cfg.tCmd { s with eng := { s.eng with ctrl := m } }

theorem entryBody_observerBlind (inc sh : Bool) : ObserverBlind (entryBody inc sh) :=
  fun s => transfer_observerBlind _ _ s.cfg.tCmd { s with eng := { s.eng with entry := entryOf inc sh } }

theorem backlightBody_observerBlind (on : Bool) : ObserverBlind (backlightBody on) :=
  fun s => perform_observerBlind [.write (backlightFrame s.cfg s.eng.shadow on)]
    { s with eng := { s.eng with bl := on } }

/-- R95: the bounds are the configuration's. -/
theorem setcurBody_observerBlind (line col : Nat) : ObserverBlind (setcurBody line col) := by
  intro s o
  by_cases hout : s.cfg.lines ≤ line ∨ s.cfg.columns ≤ col
  · exact ⟨o, by simp only [setcurBody, hout, if_true]; rfl⟩
  · simp only [setcurBody, hout, if_false]
    exact transfer_observerBlind _ _ _ s o

/-- R92: the gate reads the engine alone. -/
theorem gated_observerBlind {body : State → State} (h : ObserverBlind body) : ObserverBlind (gated body) := by
  intro s o
  by_cases hready : s.eng.fsm = .ready
  · simp only [gated, hready, if_true]
    exact h s o
  · exact ⟨o, by simp only [gated, hready, if_false]; rfl⟩

/-- R6: whatever a request does, the observer does not choose it. -/
theorem requestBody_observerBlind (i : Instr) : ObserverBlind (requestBody i) := by
  cases i with
  | init => exact initBody_observerBlind
  | clear => exact gated_observerBlind fun s => transfer_observerBlind _ _ s.cfg.tClear s
  | home => exact gated_observerBlind fun s => transfer_observerBlind _ _ s.cfg.tHome s
  | setcur line col => exact gated_observerBlind (setcurBody_observerBlind line col)
  | putc b => exact gated_observerBlind fun s => transfer_observerBlind _ _ s.cfg.tCmd s
  | display on => exact gated_observerBlind fun s => sendCtrl_observerBlind (setCtrlD s.eng.ctrl on) s
  | cursor on => exact gated_observerBlind fun s => sendCtrl_observerBlind (setCtrlC s.eng.ctrl on) s
  | blink on => exact gated_observerBlind fun s => sendCtrl_observerBlind (setCtrlB s.eng.ctrl on) s
  | entry inc sh => exact gated_observerBlind (entryBody_observerBlind inc sh)
  | shift sc rl => exact gated_observerBlind fun s => transfer_observerBlind _ _ s.cfg.tCmd s
  | backlight on => exact gated_observerBlind (backlightBody_observerBlind on)
  | pread => exact perform_observerBlind [.read]
  | _ => exact fun _ o => ⟨o, rfl⟩

/-- Settles O33: the port reads the configuration and the engine, and the body is blind to the observer. -/
theorem observerDoesNotSteerTheEngine : Obligations.ObserverDoesNotSteerTheEngine := by
  intro s t i o hi hnext
  rw [exec_of_isRequest hi] at hnext ⊢
  obtain ⟨hacc, rfl⟩ := accept_next hnext
  obtain ⟨o', ho'⟩ :=
    requestBody_observerBlind i { s with eng := { s.eng with busy := true, seq := 0 } } o
  have haccObs : State.Accepts { s with obs := o } := hacc
  exact ⟨o', by rw [accept_of_accepts haccObs, ho']⟩

end Sys2Proof.Machine
end

section
/-! PROOFS. Runs of micro-operations, by outcome (R16, R135): which events a run leaves behind, and what `seq`
says at its end. -/

namespace Sys2Proof.Machine

/-! ### The events of a run -/

/-- R39, R40, R81: the event of a micro-operation that completes. -/
inductive OpCompletes (c : Config) : MicroOp → Event → Prop where
  | write (f : Frame) : OpCompletes c (.write f) (.busWrite c.i2cAddr f true)
  | read (v : Byte) : OpCompletes c .read (.busRead c.i2cAddr (some v))
  | wait (t : Nat) : OpCompletes c (.wait t) (.wait t)

/-- R39, R40: the event of a micro-operation that is the BusError. A wait never is. -/
inductive OpFails (c : Config) : MicroOp → Event → Prop where
  | write (f : Frame) : OpFails c (.write f) (.busWrite c.i2cAddr f false)
  | read : OpFails c .read (.busRead c.i2cAddr none)

/-- R135: the events of a run that completes. -/
abbrev RunCompletes (c : Config) : List MicroOp → List Event → Prop := List.Forall₂ (OpCompletes c)

/-- R135: the events of a run that ends at its first BusError. -/
inductive RunFails (c : Config) : List MicroOp → List Event → Prop where
  | now {op : MicroOp} {ev : Event} (ops : List MicroOp) (h : OpFails c op ev) : RunFails c (op :: ops) [ev]
  | later {op : MicroOp} {ev : Event} {ops : List MicroOp} {evs : List Event} (h : OpCompletes c op ev)
      (hs : RunFails c ops evs) : RunFails c (op :: ops) (ev :: evs)

theorem advanced_nil (s : State) : s.advanced [] 0 = s := by
  simp [State.advanced, shadowAfter, Observer.takeAll, transactions, Transport.skip]

/-- R16: what one micro-operation can do. -/
theorem runOp_cases (op : MicroOp) (d : Option Byte) (s : State) :
    (∃ ev d', OpCompletes s.cfg op ev ∧ runOp op d s = .done d' (s.advanced [ev] 1)) ∨
      ∃ ev, OpFails s.cfg op ev ∧ runOp op d s = .busError (s.advanced [ev] 0) := by
  cases op with
  | write f =>
    cases h : s.bus.answer.ok with
    | true => exact .inl ⟨_, _, .write f, portWrite_ok h f d⟩
    | false => exact .inr ⟨_, .write f, portWrite_busError h f d⟩
  | read =>
    cases h : s.bus.answer.ok with
    | true => exact .inl ⟨_, _, .read _, portRead_ok h⟩
    | false => exact .inr ⟨_, .read, portRead_busError h⟩
  | wait t => exact .inl ⟨_, _, .wait t, wait_done t d s⟩

/-- R135: what a run of micro-operations can do. -/
theorem runOps_cases (ops : List MicroOp) (d : Option Byte) (s : State) :
    (∃ evs d', RunCompletes s.cfg ops evs ∧ runOps ops d s = .done d' (s.advanced evs ops.length)) ∨
      ∃ evs n, RunFails s.cfg ops evs ∧ runOps ops d s = .busError (s.advanced evs n) := by
  induction ops generalizing d s with
  | nil => exact .inl ⟨[], d, .nil, by rw [runOps, List.length_nil, advanced_nil]⟩
  | cons op ops ih =>
    obtain ⟨ev, d', hev, hop⟩ | ⟨ev, hev, hop⟩ := runOp_cases op d s
    · obtain ⟨evs, d'', hevs, h⟩ | ⟨evs, n, hevs, h⟩ := ih d' (s.advanced [ev] 1)
      · exact .inl ⟨ev :: evs, d'', .cons hev hevs, by
          simp [runOps, hop, h, advanced_advanced, Nat.add_comm]⟩
      · exact .inr ⟨ev :: evs, 1 + n, .later hev hevs, by simp [runOps, hop, h, advanced_advanced]⟩
    · exact .inr ⟨[ev], 0, .now ops hev, by simp [runOps, hop]⟩

/-! ### seq -/

/-- R16: `seq` counts the micro-operations of a run that completes. -/
theorem runOps_done_seq {ops : List MicroOp} {d d' : Option Byte} {s t : State}
    (h : runOps ops d s = .done d' t) : t.eng.seq = s.eng.seq + ops.length := by
  obtain ⟨evs, d'', -, hrun⟩ | ⟨evs, n, -, hrun⟩ := runOps_cases ops d s
  · rw [hrun] at h
    cases h
    rfl
  · rw [hrun] at h
    cases h

/-- R16: a micro-operation that is the BusError is a bus transaction, and leaves `seq` as it is. -/
theorem runOp_busError {op : MicroOp} {d : Option Byte} {s t : State} (h : runOp op d s = .busError t) :
    (op = .read ∨ ∃ f, op = .write f) ∧ t.eng.seq = s.eng.seq := by
  obtain ⟨ev, d', -, hop⟩ | ⟨ev, hev, hop⟩ := runOp_cases op d s
  · rw [hop] at h
    cases h
  · rw [hop] at h
    cases h
    cases hev with
    | write f => exact ⟨.inr ⟨f, rfl⟩, rfl⟩
    | read => exact ⟨.inl rfl, rfl⟩

/-- R135: a run that ends in a BusError completes all before some micro-operation, and ends in that one. -/
theorem runOps_busError_at {ops : List MicroOp} {d : Option Byte} {s t : State}
    (h : runOps ops d s = .busError t) :
    ∃ k op d' u, ops[k]? = some op ∧ runOps (ops.take k) d s = .done d' u ∧ runOp op d' u = .busError t := by
  induction ops generalizing d s with
  | nil => cases h
  | cons op ops ih =>
    rw [runOps] at h
    cases hop : runOp op d s with
    | busError u =>
      rw [hop] at h
      cases h
      exact ⟨0, op, d, s, rfl, rfl, hop⟩
    | done d' u =>
      rw [hop] at h
      obtain ⟨k, op', d'', v, hget, htake, hfail⟩ := ih h
      exact ⟨k + 1, op', d'', v, hget, by rw [List.take_succ_cons, runOps, hop]; exact htake, hfail⟩

/-- Settles O32: the run before the failing micro-operation completes, so `seq` there is its index. -/
theorem seqNamesTheMicroOperation : Obligations.SeqNamesTheMicroOperation := by
  intro ops d s hseq
  refine ⟨fun d' t h => by rw [runOps_done_seq h, hseq, Nat.zero_add], fun t h => ?_⟩
  obtain ⟨k, op, d', u, hget, htake, hfail⟩ := runOps_busError_at h
  obtain ⟨hop, htu⟩ := runOp_busError hfail
  have hk : k < ops.length := (List.getElem?_eq_some_iff.mp hget).1
  have hseqk : t.eng.seq = k := by
    rw [htu, runOps_done_seq htake, hseq, List.length_take_of_le hk.le, Nat.zero_add]
  rw [hseqk]
  exact ⟨op, hget, hop, d', u, htake, hfail⟩

end Sys2Proof.Machine
end

section
/-! PROOFS. What an instruction can do, said once: how the engine stands and which events were emitted when a
request ends (R82, R87 to R104, R132 to R136), and that any other instruction is the controller's alone. -/

namespace Sys2Proof.Machine

/-! ### What a request sends -/

/-- R82, R87: the engine with the registers a request writes before its first micro-operation. -/
def committed : Instr → Engine → Engine
  | .init, e => { e with fsm := .initializing, ctrl := 0b100#3, entry := 0b10#2 }
  | .display on, e => { e with ctrl := setCtrlD e.ctrl on }
  | .cursor on, e => { e with ctrl := setCtrlC e.ctrl on }
  | .blink on, e => { e with ctrl := setCtrlB e.ctrl on }
  | .entry inc sh, e => { e with entry := entryOf inc sh }
  | .backlight on, e => { e with bl := on }
  | _, e => e

/-- R87, R134: the engine with the registers a request writes when all its micro-operations complete. -/
def completedEngine (i : Instr) (e : Engine) : Engine :=
  if i = .init then { committed i e with fsm := .ready, syncLost := false } else committed i e

/-- R89, R134: the engine with the registers a request writes when a micro-operation is a BusError. -/
def failedEngine (i : Instr) (e : Engine) : Engine :=
  if i = .init then { committed i e with fsm := .uninit, syncLost := true }
  else { committed i e with syncLost := true }

/-- R89: what a BusError does to the controller. -/
def failedObserver (i : Instr) (o : Observer) : Observer := if i = .init then o.indeterminate else o

theorem committed_shadow (i : Instr) (e : Engine) : (committed i e).shadow = e.shadow := by
  cases i <;> rfl

theorem committed_syncLost (i : Instr) (e : Engine) : (committed i e).syncLost = e.syncLost := by
  cases i <;> rfl

theorem committed_fsm {i : Instr} (h : i ≠ .init) (e : Engine) : (committed i e).fsm = e.fsm := by
  cases i with
  | init => exact absurd rfl h
  | _ => rfl

theorem committed_bl {i : Instr} (h : ∀ on, i ≠ .backlight on) (e : Engine) : (committed i e).bl = e.bl := by
  cases i with
  | backlight on => exact absurd rfl (h on)
  | _ => rfl

theorem committed_ctrl {i : Instr} (hi : i ≠ .init) (hd : ∀ on, i ≠ .display on) (hc : ∀ on, i ≠ .cursor on)
    (hb : ∀ on, i ≠ .blink on) (e : Engine) : (committed i e).ctrl = e.ctrl := by
  cases i with
  | init => exact absurd rfl hi
  | display on => exact absurd rfl (hd on)
  | cursor on => exact absurd rfl (hc on)
  | blink on => exact absurd rfl (hb on)
  | _ => rfl

theorem committed_entry {i : Instr} (hi : i ≠ .init) (he : ∀ inc sh, i ≠ .entry inc sh) (e : Engine) :
    (committed i e).entry = e.entry := by
  cases i with
  | init => exact absurd rfl hi
  | entry inc sh => exact absurd rfl (he inc sh)
  | _ => rfl

theorem completedEngine_of_ne {i : Instr} (h : i ≠ .init) (e : Engine) : completedEngine i e = committed i e :=
  if_neg h

theorem failedEngine_of_ne {i : Instr} (h : i ≠ .init) (e : Engine) :
    failedEngine i e = { committed i e with syncLost := true } := if_neg h

/-- R87, R134: of what a request commits, its end changes `fsm` and `sync_lost` alone. -/
theorem completedEngine_mirrors (i : Instr) (e : Engine) :
    (completedEngine i e).bl = (committed i e).bl ∧ (completedEngine i e).ctrl = (committed i e).ctrl ∧
      (completedEngine i e).entry = (committed i e).entry := by
  unfold completedEngine
  split <;> exact ⟨rfl, rfl, rfl⟩

theorem failedEngine_mirrors (i : Instr) (e : Engine) :
    (failedEngine i e).bl = (committed i e).bl ∧ (failedEngine i e).ctrl = (committed i e).ctrl ∧
      (failedEngine i e).entry = (committed i e).entry := by
  unfold failedEngine
  split <;> exact ⟨rfl, rfl, rfl⟩

/-- R134: a BusError sets `sync_lost`. -/
theorem failedEngine_syncLost (i : Instr) (e : Engine) : (failedEngine i e).syncLost = true := by
  unfold failedEngine
  split <;> rfl

/-- R87 to R104: the micro-operations of a request that passes its checks. -/
def requestOps (i : Instr) (s : State) : List MicroOp :=
  match i with
  | .init => initOps s.cfg s.eng.bl
  | .clear => sendOps s.cfg s.eng.bl clearByte .instruction s.cfg.tClear
  | .home => sendOps s.cfg s.eng.bl homeByte .instruction s.cfg.tHome
  | .setcur line col => sendOps s.cfg s.eng.bl (ddAddrByte (ddAddr s.cfg line col)) .instruction s.cfg.tCmd
  | .putc b => sendOps s.cfg s.eng.bl b .data s.cfg.tCmd
  | .display on => sendOps s.cfg s.eng.bl (ctrlByte (setCtrlD s.eng.ctrl on)) .instruction s.cfg.tCmd
  | .cursor on => sendOps s.cfg s.eng.bl (ctrlByte (setCtrlC s.eng.ctrl on)) .instruction s.cfg.tCmd
  | .blink on => sendOps s.cfg s.eng.bl (ctrlByte (setCtrlB s.eng.ctrl on)) .instruction s.cfg.tCmd
  | .entry inc sh => sendOps s.cfg s.eng.bl (entryByte inc sh) .instruction s.cfg.tCmd
  | .shift sc rl => sendOps s.cfg s.eng.bl (shiftByte sc rl) .instruction s.cfg.tCmd
  | .backlight on => [.write (backlightFrame s.cfg s.eng.shadow on)]
  | .pread => [.read]
  | _ => []

/-! ### How a request ends -/

/-- R132 to R136: the states a request can leave. It answers without an event, or runs its micro-operations to
the end, or up to a BusError. -/
inductive RequestEnds (i : Instr) (s : State) : State → Prop where
  | quiet (code : Code) (data : Option Byte) (hcode : code ≠ .busError) :
      RequestEnds i s (s.settled s.eng [] code data)
  | completed (evs : List Event) (data : Option Byte) (hrun : RunCompletes s.cfg (requestOps i s) evs) :
      RequestEnds i s (s.settled (completedEngine i s.eng) evs .ok data)
  | failed (evs : List Event) (hrun : RunFails s.cfg (requestOps i s) evs) :
      RequestEnds i s { s.settled (failedEngine i s.eng) evs .busError none with
        obs := failedObserver i (s.obs.takeAll s.cfg evs) }

/-- R103, R132, R133: a response without an event. -/
theorem respond_ends (i : Instr) {code : Code} (hcode : code ≠ .busError) (data : Option Byte) (s : State) :
    RequestEnds i s (respond code data s) := by
  have h : respond code data s = s.settled s.eng [] code data := by
    simp [State.settled, respond, shadowAfter, Observer.takeAll, transactions, Transport.skip]
  rw [h]
  exact .quiet code data hcode

/-- R134, R136: what a request that runs its micro-operations and responds can do. -/
theorem perform_cases (ops : List MicroOp) (s : State) :
    (∃ evs data, RunCompletes s.cfg ops evs ∧ perform ops s = s.settled s.eng evs .ok data) ∨
      ∃ evs, RunFails s.cfg ops evs ∧
        perform ops s = s.settled { s.eng with syncLost := true } evs .busError none := by
  obtain ⟨evs, d, hevs, h⟩ | ⟨evs, n, hevs, h⟩ := runOps_cases ops none s
  · exact .inl ⟨evs, d, hevs, by rw [perform, h]; rfl⟩
  · exact .inr ⟨evs, hevs, by rw [perform, h]; rfl⟩

/-- R87, R89: INIT. -/
theorem initBody_ends (s : State) : RequestEnds .init s (initBody s) := by
  obtain ⟨evs, d, hevs, h⟩ | ⟨evs, n, hevs, h⟩ := runOps_cases (initOps s.cfg s.eng.bl) none (initBegin s)
  · rw [initBody, h]
    exact .completed evs none hevs
  · rw [initBody, h]
    exact .failed evs hevs

/-- R82: a request other than INIT that runs its micro-operations. -/
theorem perform_ends {i : Instr} (hi : i ≠ .init) (s : State) :
    RequestEnds i s (perform (requestOps i s) { s with eng := committed i s.eng }) := by
  have hshadow := committed_shadow i s.eng
  have hobs : ∀ o, failedObserver i o = o := fun _ => if_neg hi
  obtain ⟨evs, data, hevs, h⟩ | ⟨evs, hevs, h⟩ :=
    perform_cases (requestOps i s) { s with eng := committed i s.eng }
  · have hend := RequestEnds.completed (i := i) (s := s) evs data hevs
    rw [completedEngine_of_ne hi] at hend
    rw [h]
    simpa only [State.settled, hshadow] using hend
  · have hend := RequestEnds.failed (i := i) (s := s) evs hevs
    rw [failedEngine_of_ne hi, hobs] at hend
    rw [h]
    simpa only [State.settled, hshadow] using hend

/-- R92: a gated request responds NOT_INITIALIZED, or runs its body. -/
theorem gated_ends {i : Instr} {body : State → State} {s : State} (h : RequestEnds i s (body s)) :
    RequestEnds i s (gated body s) := by
  unfold gated
  split
  · exact h
  · exact respond_ends i (by decide) none s

/-- R95: SETCUR responds OUT_OF_BOUNDS, or sends its byte. -/
theorem setcurBody_ends (line col : Nat) (s : State) : RequestEnds (.setcur line col) s (setcurBody line col s) := by
  unfold setcurBody
  split
  · exact respond_ends _ (by decide) none s
  · exact perform_ends (i := .setcur line col) nofun s

theorem requestBody_ends {i : Instr} (h : i.isRequest = true) (s : State) : RequestEnds i s (requestBody i s) := by
  -- But for INIT, GETBL and the bounds of SETCUR, a body is by definition the run of `requestOps`.
  have run (hi : i ≠ .init) := perform_ends hi s
  cases i with
  | init => exact initBody_ends s
  | setcur line col => exact gated_ends (setcurBody_ends line col s)
  | getbl => exact respond_ends _ (by decide) _ s
  | pread => exact run nofun
  | clear | home | putc | display | cursor | blink | entry | shift | backlight => exact gated_ends (run nofun)
  | _ => cases h

/-- R17: that the port is taken while a request runs is not seen in how the request ends. -/
theorem RequestEnds.of_begun {i : Instr} {s t : State}
    (h : RequestEnds i { s with eng := { s.eng with busy := true, seq := 0 } } t) : RequestEnds i s t := by
  cases h with
  | quiet code data hcode => exact .quiet code data hcode
  | completed evs data hrun =>
    have hend := RequestEnds.completed (i := i) (s := s) evs data (by cases i <;> exact hrun)
    cases i <;> exact hend
  | failed evs hrun =>
    have hend := RequestEnds.failed (i := i) (s := s) evs (by cases i <;> exact hrun)
    cases i <;> exact hend

/-- R8, R17, R136: a request that answers a next state was accepted and has ended. -/
theorem exec_request_ends {i : Instr} {s t : State} (hi : i.isRequest = true) (h : exec i s = .next t) :
    s.Accepts ∧ RequestEnds i s t := by
  rw [exec_of_isRequest hi] at h
  obtain ⟨hacc, rfl⟩ := accept_next h
  exact ⟨hacc, .of_begun (requestBody_ends hi _)⟩

/-- R113, R116, R118: an instruction that is no request and answers a next state is a word or a nibble at the
controller (log entry 8). -/
theorem exec_of_not_request {i : Instr} {s t : State} (hi : i.isRequest = false) (h : exec i s = .next t) :
    ∃ f, t = atController f s ∧ (f = Observer.runWord i ∨ ∃ n rs, f = Observer.takeNibble n rs) := by
  cases i with
  | init | clear | home | setcur | putc | display | cursor | blink | entry | shift | backlight | getbl
  | pread => cases hi
  | readBusyAddr | readData => cases h
  | bootNibble3 | bootNibble2 => cases h; exact ⟨_, rfl, .inr ⟨_, _, rfl⟩⟩
  | _ => cases h; exact ⟨_, rfl, .inl rfl⟩

/-- Settles O7: a well-formed configuration leaves the busy port as the only refusal. -/
theorem portTakesOneRequestAtATime : Obligations.PortTakesOneRequestAtATime := by
  intro i s hi hwf hbusy
  rw [exec_of_isRequest hi]
  simp [accept, hwf, hbusy]

end Sys2Proof.Machine
end

section
/-! PROOFS. The frames a request writes (R28, R31, R55, R70): where their lines stand, which operations they come
from, and what they make of `shadow`. -/

namespace Sys2Proof.Machine

/-! ### The lines of a frame -/

/-- R8 cfg_pinmap: RW, E and BL each share a pin with no other signal. -/
theorem pins_apart {c : Config} (h : c.wf = true) :
    c.pinmap.rw ∉ [c.pinmap.rs, c.pinmap.e, c.pinmap.bl, c.pinmap.d4, c.pinmap.d5, c.pinmap.d6, c.pinmap.d7] ∧
    c.pinmap.e ∉ [c.pinmap.rs, c.pinmap.rw, c.pinmap.bl, c.pinmap.d4, c.pinmap.d5, c.pinmap.d6, c.pinmap.d7] ∧
    c.pinmap.bl ∉ [c.pinmap.rs, c.pinmap.rw, c.pinmap.e, c.pinmap.d4, c.pinmap.d5, c.pinmap.d6, c.pinmap.d7] := by
  have hnodup := pinmap_nodup h
  simp only [PinMap.positions, List.nodup_cons, List.mem_cons, List.not_mem_nil, or_false, not_or] at hnodup ⊢
  obtain ⟨hrs, hrw, he, hbl, -⟩ := hnodup
  simp only [hrs, hrw, he, hbl, eq_comm, not_false_eq_true, and_self]

theorem line_frame_rw {c : Config} (h : c.wf = true) (n : Nibble) (rs blv e : Bool) :
    line (frame c n rs blv e) c.pinmap.rw = false := by
  obtain ⟨hapart, -, -⟩ := pins_apart h
  simp only [List.mem_cons, List.not_mem_nil, or_false, not_or] at hapart
  simp [frame, line_or, line_signal, hapart]

theorem line_frame_e {c : Config} (h : c.wf = true) (n : Nibble) (rs blv e : Bool) :
    line (frame c n rs blv e) c.pinmap.e = e := by
  obtain ⟨-, hapart, -⟩ := pins_apart h
  simp only [List.mem_cons, List.not_mem_nil, or_false, not_or] at hapart
  simp [frame, line_or, line_signal, hapart]

theorem line_frame_bl {c : Config} (h : c.wf = true) (n : Nibble) (rs blv e : Bool) :
    line (frame c n rs blv e) c.pinmap.bl = blBit c blv := by
  obtain ⟨-, -, hapart⟩ := pins_apart h
  simp only [List.mem_cons, List.not_mem_nil, or_false, not_or] at hapart
  simp [frame, line_or, line_signal, hapart]

theorem line_backlightFrame_bl (c : Config) (f : Frame) (on : Bool) :
    line (backlightFrame c f on) c.pinmap.bl = blBit c on := by
  simp [backlightFrame, line_or, line_and_not_mask, line_signal]

/-- R80: a backlight write changes no line but BL. -/
theorem line_backlightFrame_of_ne {c : Config} {i : Fin 8} (h : i ≠ c.pinmap.bl) (f : Frame) (on : Bool) :
    line (backlightFrame c f on) i = line f i := by
  simp [backlightFrame, line_or, line_and_not_mask, line_signal, h]

/-! ### The operations the frames come from -/

/-- R74: every write in a list of micro-operations is a frame of the builder's, with the backlight at `bl`. -/
def WritesBuiltFrames (c : Config) (bl : Bool) (ops : List MicroOp) : Prop :=
  ∀ f, .write f ∈ ops → ∃ n rs e, f = frame c n rs bl e

theorem WritesBuiltFrames.append {c : Config} {bl : Bool} {as bs : List MicroOp}
    (ha : WritesBuiltFrames c bl as) (hb : WritesBuiltFrames c bl bs) : WritesBuiltFrames c bl (as ++ bs) :=
  fun f hf => (List.mem_append.mp hf).elim (ha f) (hb f)

theorem wait_writesBuiltFrames (c : Config) (bl : Bool) (t : Nat) : WritesBuiltFrames c bl [.wait t] := by
  simp [WritesBuiltFrames]

theorem nibbleFrames_writesBuiltFrames (c : Config) (n : Nibble) (rs bl : Bool) :
    WritesBuiltFrames c bl ((nibbleFrames c n rs bl).map .write) := by
  intro f hf
  obtain rfl | rfl : f = frame c n rs bl true ∨ f = frame c n rs bl false := by simpa [nibbleFrames] using hf
  · exact ⟨n, rs, true, rfl⟩
  · exact ⟨n, rs, false, rfl⟩

theorem bootOps_writesBuiltFrames (c : Config) (bl : Bool) (n : Nibble) (t : Nat) :
    WritesBuiltFrames c bl (bootOps c bl n t) :=
  (nibbleFrames_writesBuiltFrames c n false bl).append (wait_writesBuiltFrames c bl t)

theorem sendOps_writesBuiltFrames (c : Config) (bl : Bool) (v : Byte) (m : Mode) (t : Nat) :
    WritesBuiltFrames c bl (sendOps c bl v m t) := by
  rw [sendOps, encodeFrames, List.map_append]
  exact ((nibbleFrames_writesBuiltFrames c _ _ bl).append (nibbleFrames_writesBuiltFrames c _ _ bl)).append
    (wait_writesBuiltFrames c bl t)

theorem initOps_writesBuiltFrames (c : Config) (bl : Bool) : WritesBuiltFrames c bl (initOps c bl) := by
  have boot := bootOps_writesBuiltFrames c bl
  have send := sendOps_writesBuiltFrames c bl
  have hbootstrap : WritesBuiltFrames c bl (bootstrapOps c bl) :=
    ((((wait_writesBuiltFrames c bl _).append (boot _ _)).append (boot _ _)).append (boot _ _)).append (boot _ _)
  have hsetup : WritesBuiltFrames c bl (setupOps c bl) :=
    ((((send _ _ _).append (send _ _ _)).append (send _ _ _)).append (send _ _ _)).append (send _ _ _)
  exact hbootstrap.append hsetup

/-- R74, R80: a request writes frames of the builder's, or the one frame of BACKLIGHT. -/
theorem write_mem_requestOps {i : Instr} {s : State} {f : Frame} (h : .write f ∈ requestOps i s) :
    (∃ n rs e, f = frame s.cfg n rs (committed i s.eng).bl e) ∨
      ∃ on, i = .backlight on ∧ f = backlightFrame s.cfg s.eng.shadow on := by
  cases i with
  | init => exact .inl (initOps_writesBuiltFrames _ _ f h)
  | clear | home | setcur | putc | display | cursor | blink | entry | shift =>
    exact .inl (sendOps_writesBuiltFrames _ _ _ _ _ f h)
  | backlight on => exact .inr ⟨on, rfl, by simpa [requestOps] using h⟩
  | _ => simp [requestOps] at h

/-- R28, R31, R70: a frame of a request has RW = 0 and carries the backlight bit. -/
theorem requestOps_rw_bl {i : Instr} {s : State} {f : Frame} (hwf : s.cfg.wf = true)
    (hrw : line s.eng.shadow s.cfg.pinmap.rw = false) (h : .write f ∈ requestOps i s) :
    line f s.cfg.pinmap.rw = false ∧ line f s.cfg.pinmap.bl = blBit s.cfg (committed i s.eng).bl := by
  obtain ⟨n, rs, e, rfl⟩ | ⟨on, rfl, rfl⟩ := write_mem_requestOps h
  · exact ⟨line_frame_rw hwf n rs _ e, line_frame_bl hwf n rs _ e⟩
  · have hne : s.cfg.pinmap.rw ≠ s.cfg.pinmap.bl := fun h => (pins_apart hwf).1 (by simp [h])
    exact ⟨by rw [line_backlightFrame_of_ne hne, hrw], line_backlightFrame_bl _ _ on⟩

/-! ### The writes among the events -/

theorem RunCompletes.write_mem {c : Config} {ops : List MicroOp} {evs : List Event} (h : RunCompletes c ops evs)
    {a : BitVec 7} {f : Frame} {ok : Bool} (hmem : .busWrite a f ok ∈ evs) :
    a = c.i2cAddr ∧ .write f ∈ ops := by
  induction h with
  | nil => cases hmem
  | cons hev _ ih =>
    obtain rfl | hmem := List.mem_cons.mp hmem
    · cases hev
      exact ⟨rfl, List.mem_cons_self⟩
    · exact (ih hmem).imp id (List.mem_cons_of_mem _)

theorem RunFails.write_mem {c : Config} {ops : List MicroOp} {evs : List Event} (h : RunFails c ops evs)
    {a : BitVec 7} {f : Frame} {ok : Bool} (hmem : .busWrite a f ok ∈ evs) :
    a = c.i2cAddr ∧ .write f ∈ ops := by
  induction h with
  | now ops hev =>
    obtain rfl := List.mem_singleton.mp hmem
    cases hev
    exact ⟨rfl, List.mem_cons_self⟩
  | later hev _ ih =>
    obtain rfl | hmem := List.mem_cons.mp hmem
    · cases hev
      exact ⟨rfl, List.mem_cons_self⟩
    · exact (ih hmem).imp id (List.mem_cons_of_mem _)

/-- R22: `shadow` after events is the old one, or a frame among them. -/
theorem shadowAfter_mem (f : Frame) (evs : List Event) :
    shadowAfter f evs = f ∨ ∃ a, .busWrite a (shadowAfter f evs) true ∈ evs := by
  induction evs generalizing f with
  | nil => exact .inl rfl
  | cons e es ih =>
    obtain ⟨a, g, _ | _⟩ | ⟨a, r⟩ | t := e
    case busWrite.true =>
      obtain h | ⟨b, h⟩ := ih g
      · exact .inr ⟨a, by rw [shadowAfter, h]; exact List.mem_cons_self⟩
      · exact .inr ⟨b, List.mem_cons_of_mem _ h⟩
    all_goals exact (ih f).imp id fun ⟨b, h⟩ => ⟨b, List.mem_cons_of_mem _ h⟩

/-- R12, R22, R136: what a request adds to the trace, and what that makes of `shadow`: events whose writes are its
own, and one response. -/
theorem RequestEnds.emits {i : Instr} {s t : State} (h : RequestEnds i s t) :
    ∃ evs code data, t.trace = s.trace ++ evs.map .event ++ [.response code data] ∧
      t.eng.shadow = shadowAfter s.eng.shadow evs ∧
      ∀ a f ok, .busWrite a f ok ∈ evs →
        a = s.cfg.i2cAddr ∧ .write f ∈ requestOps i s ∧ t.eng.bl = (committed i s.eng).bl := by
  cases h with
  | quiet code data => exact ⟨[], code, data, rfl, rfl, nofun⟩
  | completed evs data hrun =>
    obtain ⟨hbl, -, -⟩ := completedEngine_mirrors i s.eng
    exact ⟨evs, _, _, rfl, rfl, fun a f ok hmem =>
      let ⟨haddr, hop⟩ := hrun.write_mem hmem
      ⟨haddr, hop, hbl⟩⟩
  | failed evs hrun =>
    obtain ⟨hbl, -, -⟩ := failedEngine_mirrors i s.eng
    exact ⟨evs, _, _, rfl, rfl, fun a f ok hmem =>
      let ⟨haddr, hop⟩ := hrun.write_mem hmem
      ⟨haddr, hop, hbl⟩⟩

/-- R22: a request leaves `shadow`, or one of its frames in it. -/
theorem RequestEnds.shadow_cases {i : Instr} {s t : State} (h : RequestEnds i s t) :
    t.eng.shadow = s.eng.shadow ∨ .write t.eng.shadow ∈ requestOps i s := by
  obtain ⟨evs, code, data, -, hshadow, hwrites⟩ := h.emits
  rw [hshadow]
  exact (shadowAfter_mem _ evs).imp id fun ⟨a, hmem⟩ => (hwrites a _ true hmem).2.1

/-- Settles O31: a word or nibble writes no frame, and every frame of a request is one of its operations'. -/
theorem everyFrameKeepsRwAndBacklight : Obligations.EveryFrameKeepsRwAndBacklight := by
  rintro s t i ems a f ok ⟨hwf, -, ⟨hrw, -⟩, -, -⟩ hnext htrace hmem
  cases hi : i.isRequest with
  | false =>
    obtain ⟨g, rfl, -⟩ := exec_of_not_request hi hnext
    obtain rfl : ems = [] := by simpa using htrace
    cases hmem
  | true =>
    obtain ⟨evs, code, data, htrace', -, hwrites⟩ := (exec_request_ends hi hnext).2.emits
    rw [htrace', List.append_assoc] at htrace
    obtain rfl := List.append_cancel_left htrace
    have hev : .busWrite a f ok ∈ evs := by simpa using hmem
    obtain ⟨haddr, hop, hbl⟩ := hwrites a f ok hev
    rw [hbl]
    exact ⟨haddr, requestOps_rw_bl hwf hrw hop⟩

end Sys2Proof.Machine
end

section
/-! PROOFS. The access table's columns for writes (R18, R27, R28), from what a request can do. -/

namespace Sys2Proof.Machine

theorem RunFails.ops_ne_nil {c : Config} {ops : List MicroOp} {evs : List Event} (h : RunFails c ops evs) :
    ops ≠ [] := by
  cases h <;> simp

/-- R85: no request but INIT moves `fsm`. -/
theorem RequestEnds.fsm_of_ne {i : Instr} {s t : State} (h : RequestEnds i s t) (hi : i ≠ .init) :
    t.eng.fsm = s.eng.fsm := by
  cases h with
  | quiet => rfl
  | completed evs data => rw [settled_eng, completedEngine_of_ne hi]; exact committed_fsm hi s.eng
  | failed evs => rw [settled_eng, failedEngine_of_ne hi]; exact committed_fsm hi s.eng

/-- R82: a request leaves the backlight cache and the two mirrors as they were, or as it commits them. -/
theorem RequestEnds.mirrors {i : Instr} {s t : State} (h : RequestEnds i s t) :
    (t.eng.bl = s.eng.bl ∧ t.eng.ctrl = s.eng.ctrl ∧ t.eng.entry = s.eng.entry) ∨
      (t.eng.bl = (committed i s.eng).bl ∧ t.eng.ctrl = (committed i s.eng).ctrl ∧
        t.eng.entry = (committed i s.eng).entry) := by
  cases h with
  | quiet => exact .inl ⟨rfl, rfl, rfl⟩
  | completed evs data => exact .inr (completedEngine_mirrors i s.eng)
  | failed evs => exact .inr (failedEngine_mirrors i s.eng)

/-- R23, R28: `sync_lost` stays, or INIT clears it, or a micro-operation is a BusError and sets it. -/
theorem RequestEnds.syncLost_cases {i : Instr} {s t : State} (h : RequestEnds i s t) :
    t.eng.syncLost = s.eng.syncLost ∨ (i = .init ∧ t.eng.syncLost = false) ∨
      (t.eng.syncLost = true ∧ requestOps i s ≠ [] ∧
        ∃ evs, t.trace = s.trace ++ evs ++ [.response .busError none]) := by
  cases h with
  | quiet => exact .inl rfl
  | completed evs data =>
    by_cases hi : i = .init
    · subst hi
      exact .inr (.inl ⟨rfl, rfl⟩)
    · rw [settled_eng, completedEngine_of_ne hi]
      exact .inl (committed_syncLost i s.eng)
  | failed evs hrun => exact .inr (.inr ⟨failedEngine_syncLost i s.eng, hrun.ops_ne_nil, evs.map .event, rfl⟩)

theorem RequestEnds.cfg_inbox {i : Instr} {s t : State} (h : RequestEnds i s t) :
    t.cfg = s.cfg ∧ t.inbox = s.inbox := by
  cases h <;> exact ⟨rfl, rfl⟩

/-- R27, R28: GETBL and PREAD write no frame. -/
theorem RequestEnds.shadow_of_no_write {i : Instr} {s t : State} (h : RequestEnds i s t)
    (hi : i = .getbl ∨ i = .pread) : t.eng.shadow = s.eng.shadow := by
  obtain hshadow | hmem := h.shadow_cases
  · exact hshadow
  · obtain rfl | rfl := hi <;> simp [requestOps] at hmem

/-- Settles O30, register by register; what is no request reaches the observer alone. -/
theorem registersWrittenOnlyAsTabled : Obligations.RegistersWrittenOnlyAsTabled := by
  intro s t i hnext
  cases hi : i.isRequest with
  | false =>
    obtain ⟨f, rfl, -⟩ := exec_of_not_request hi hnext
    simp +contextual
  | true =>
    have h := (exec_request_ends hi hnext).2
    refine ⟨nofun, h.fsm_of_ne, fun hbl => ?bl, fun hinit hd hc hb => ?ctrl, fun hinit he => ?entry,
      h.shadow_of_no_write, ?getbl, fun hinit hlost => ?lost, fun hkept hlost => ?busError, h.cfg_inbox⟩
    case bl =>
      obtain ⟨hstays, -, -⟩ | ⟨hbl', -, -⟩ := h.mirrors
      · exact hstays
      · exact hbl'.trans (committed_bl hbl s.eng)
    case ctrl =>
      obtain ⟨-, hstays, -⟩ | ⟨-, hctrl, -⟩ := h.mirrors
      · exact hstays
      · exact hctrl.trans (committed_ctrl hinit hd hc hb s.eng)
    case entry =>
      obtain ⟨-, -, hstays⟩ | ⟨-, -, hentry⟩ := h.mirrors
      · exact hstays
      · exact hentry.trans (committed_entry hinit he s.eng)
    case getbl =>
      rintro rfl
      obtain hstays | ⟨hinit, -⟩ | ⟨-, hops, -⟩ := h.syncLost_cases
      · exact hstays
      · cases hinit
      · exact absurd rfl hops
    case lost =>
      obtain hstays | ⟨his, -⟩ | ⟨hset, -⟩ := h.syncLost_cases
      · exact hstays.trans hlost
      · exact absurd his hinit
      · exact hset
    case busError =>
      obtain hstays | ⟨-, hclear⟩ | ⟨-, -, htrace⟩ := h.syncLost_cases
      · rw [hstays, hkept] at hlost
        cases hlost
      · rw [hclear] at hlost
        cases hlost
      · exact htrace

end Sys2Proof.Machine
end

section
/-! PROOFS. The machine's invariant (R17, R31, R130): it holds at reset, and every step keeps it. -/

namespace Sys2Proof.Machine

/-! ### The last frame of a run -/

/-- R22: the last frame a list of micro-operations writes, after `f`. -/
def lastFrame : Frame → List MicroOp → Frame
  | f, [] => f
  | _, .write g :: ops => lastFrame g ops
  | f, .read :: ops => lastFrame f ops
  | f, .wait _ :: ops => lastFrame f ops

theorem lastFrame_append (f : Frame) (as bs : List MicroOp) :
    lastFrame f (as ++ bs) = lastFrame (lastFrame f as) bs := by
  induction as generalizing f with
  | nil => rfl
  | cons op ops ih => cases op <;> exact ih _

/-- R76, R79: a byte transfer ends with E = 0. -/
theorem lastFrame_sendOps (f : Frame) (c : Config) (bl : Bool) (v : Byte) (m : Mode) (t : Nat) :
    lastFrame f (sendOps c bl v m t) = frame c (loNibble v) (rsOf m) bl false := rfl

/-- R33, R87: INIT ends with the transfer of the display-on byte. -/
theorem lastFrame_initOps (f : Frame) (c : Config) (bl : Bool) :
    lastFrame f (initOps c bl) = frame c (loNibble (dispctlByte true false false)) false bl false := by
  rw [initOps, setupOps, lastFrame_append, lastFrame_append, lastFrame_sendOps]
  rfl

/-- R22: a run that completes leaves its last frame in `shadow`. -/
theorem RunCompletes.shadowAfter_eq {c : Config} {ops : List MicroOp} {evs : List Event}
    (h : RunCompletes c ops evs) (f : Frame) : shadowAfter f evs = lastFrame f ops := by
  induction h generalizing f with
  | nil => rfl
  | cons hev _ ih => cases hev <;> exact ih _

/-- R31: after a request that completes, `shadow` has E = 0, if it had before or the request is INIT. -/
theorem lastFrame_requestOps_e {i : Instr} {s : State} (hwf : s.cfg.wf = true)
    (he : i ≠ .init → line s.eng.shadow s.cfg.pinmap.e = false) :
    line (lastFrame s.eng.shadow (requestOps i s)) s.cfg.pinmap.e = false := by
  cases i with
  | init => rw [requestOps, lastFrame_initOps, line_frame_e hwf]
  | clear | home | setcur | putc | display | cursor | blink | entry | shift =>
    rw [requestOps, lastFrame_sendOps, line_frame_e hwf]
  | backlight on =>
    have hne : s.cfg.pinmap.e ≠ s.cfg.pinmap.bl := fun h => (pins_apart hwf).2.1 (by simp [h])
    exact (line_backlightFrame_of_ne hne s.eng.shadow on).trans (he nofun)
  | _ => exact he nofun

/-! ### The latch through a run -/

theorem running_of_takeAll {c : Config} {evs : List Event} {o : Observer} (h : (o.takeAll c evs).running = true) :
    o.running = true := by
  by_contra hstopped
  rw [takeAll_stopped c evs (by simpa using hstopped)] at h
  exact hstopped h

/-- R108, R114: the latch after the event of a micro-operation that completes. -/
theorem OpCompletes.take_latch {c : Config} {op : MicroOp} {ev : Event} (h : OpCompletes c op ev) {o : Observer}
    (hrun : o.running = true) : (o.take c ev).latch = lastFrame o.latch [op] := by
  cases h with
  | write f => simp [Observer.take, hrun, latchTo_latch, lastFrame]
  | read v => simp [Observer.take, lastFrame]
  | wait t => simp [Observer.take, hrun, lastFrame]

/-- R130: an observer that still runs after a run that completes has the run's last frame in its latch. -/
theorem RunCompletes.takeAll_latch {c : Config} {ops : List MicroOp} {evs : List Event}
    (h : RunCompletes c ops evs) {o : Observer} (hrun : (o.takeAll c evs).running = true) :
    (o.takeAll c evs).latch = lastFrame o.latch ops := by
  induction h generalizing o with
  | nil => rfl
  | @cons op ev ops evs hev _ ih =>
    have hstart : o.running = true := running_of_takeAll (evs := ev :: evs) hrun
    rw [Observer.takeAll, ih hrun, hev.take_latch hstart, ← lastFrame_append, List.singleton_append]

/-! ### Requests, words and steps -/

theorem completedEngine_fsm_ne (i : Instr) {e : Engine} (h : e.fsm ≠ .initializing) :
    (completedEngine i e).fsm ≠ .initializing := by
  by_cases hi : i = .init
  · simp [completedEngine, hi]
  · rwa [completedEngine_of_ne hi, committed_fsm hi]

theorem failedEngine_fsm_ne (i : Instr) {e : Engine} (h : e.fsm ≠ .initializing) :
    (failedEngine i e).fsm ≠ .initializing := by
  by_cases hi : i = .init
  · simp [failedEngine, hi]
  · rw [failedEngine_of_ne hi]
    exact (committed_fsm hi e).symm ▸ h

theorem failedObserver_memories (i : Instr) {o : Observer} (h : o.MemoriesWf) :
    (failedObserver i o).MemoriesWf := by
  unfold failedObserver
  split
  · exact (indeterminate_bounds o).1
  · exact h

/-- R31: `shadow` keeps RW = 0 through a request. -/
theorem RequestEnds.shadow_rw {i : Instr} {s t : State} (h : RequestEnds i s t) (hwf : s.cfg.wf = true)
    (hrw : line s.eng.shadow s.cfg.pinmap.rw = false) : line t.eng.shadow s.cfg.pinmap.rw = false := by
  obtain hshadow | hmem := h.shadow_cases
  · rwa [hshadow]
  · exact (requestOps_rw_bl hwf hrw hmem).1

theorem RequestEnds.inv {i : Instr} {s t : State} (hs : s.Inv) (h : RequestEnds i s t) : t.Inv := by
  obtain ⟨hwf, ⟨-, -, hfsm⟩, ⟨hrw, he⟩, hmem, hlatch⟩ := hs
  have hrw' := h.shadow_rw hwf hrw
  cases h with
  | quiet code data => exact ⟨hwf, ⟨rfl, rfl, hfsm⟩, ⟨hrw, he⟩, hmem, hlatch⟩
  | completed evs data hrun =>
    -- Where the request is not INIT, what the invariant says of the end it already said of the start.
    have hkept (hi : i ≠ .init) : (completedEngine i s.eng).fsm = s.eng.fsm ∧
        (completedEngine i s.eng).syncLost = s.eng.syncLost := by
      rw [completedEngine_of_ne hi]
      exact ⟨committed_fsm hi _, committed_syncLost i _⟩
    have he' (hsync : (completedEngine i s.eng).syncLost = false) :
        line (shadowAfter s.eng.shadow evs) s.cfg.pinmap.e = false := by
      rw [hrun.shadowAfter_eq]
      exact lastFrame_requestOps_e hwf fun hi => he ((hkept hi).2 ▸ hsync)
    have hlatch' (hr : (s.obs.takeAll s.cfg evs).running = true) (hready : (completedEngine i s.eng).fsm = .ready)
        (hsync : (completedEngine i s.eng).syncLost = false) :
        (s.obs.takeAll s.cfg evs).latch = shadowAfter s.eng.shadow evs := by
      rw [hrun.takeAll_latch hr, hrun.shadowAfter_eq]
      by_cases hi : i = .init
      · subst hi
        rw [requestOps, lastFrame_initOps, lastFrame_initOps]
      · rw [hlatch (running_of_takeAll hr) ((hkept hi).1 ▸ hready) ((hkept hi).2 ▸ hsync)]
    exact ⟨hwf, ⟨rfl, rfl, completedEngine_fsm_ne i hfsm⟩, ⟨hrw', he'⟩, takeAll_memories _ evs hmem, hlatch'⟩
  | failed evs hrun =>
    have hlost : (failedEngine i s.eng).syncLost ≠ false := by simp [failedEngine_syncLost]
    exact ⟨hwf, ⟨rfl, rfl, failedEngine_fsm_ne i hfsm⟩, ⟨hrw', fun hsync => absurd hsync hlost⟩,
      failedObserver_memories i (takeAll_memories _ evs hmem), fun _ _ hsync => absurd hsync hlost⟩

/-- R115, R118: what reaches the controller leaves the latch and the memories' form, and starts no stopped
observer, if what it does there leaves the first two. -/
theorem atController_inv {f : Observer → Observer} (hl : ∀ o, (f o).latch = o.latch)
    (hm : ∀ o, o.MemoriesWf → (f o).MemoriesWf) {s : State} (hs : s.Inv) : (atController f s).Inv := by
  obtain ⟨hwf, hidle, hclean, hmem, hlatch⟩ := hs
  have hreceive : (s.obs.receive f).latch = s.obs.latch ∧ (s.obs.receive f).MemoriesWf ∧
      ((s.obs.receive f).running = true → s.obs.running = true) := by
    unfold Observer.receive
    split
    · next hr =>
      split
      · exact ⟨rfl, hmem, fun _ => hr⟩
      · exact ⟨hl _, hm _ hmem, fun _ => hr⟩
    · exact ⟨rfl, hmem, id⟩
  obtain ⟨hsame, hmem', hrun⟩ := hreceive
  exact ⟨hwf, hidle, hclean, hmem', fun hr hready hsync => hsame.trans (hlatch (hrun hr) hready hsync)⟩

theorem exec_inv {i : Instr} {s t : State} (hs : s.Inv) (h : exec i s = .next t) : t.Inv := by
  cases hi : i.isRequest with
  | true => exact (exec_request_ends hi h).2.inv hs
  | false =>
    obtain ⟨f, rfl, rfl | ⟨n, rs, rfl⟩⟩ := exec_of_not_request hi h
    · exact atController_inv (runWord_latch i) (fun _ => runWord_memories i) hs
    · exact atController_inv (takeNibble_latch n rs) (fun _ => takeNibble_memories n rs) hs

/-- R147, R64: a step that answers a next state is idle, or passes an input over, or runs an instruction. -/
theorem step_next {s t : State} (h : step s = .next t) :
    t = s ∨ t = s.consume ∨ ∃ i, exec i s.consume = .next t := by
  unfold step runDecoded at h
  split at h
  · cases h
    exact .inl rfl
  · split at h
    · exact .inr (.inr ⟨_, h⟩)
    · cases h
      exact .inr (.inl rfl)
    · cases h

/-- Settles O34: the invariant does not read the inbox, and every instruction keeps it. -/
theorem stepKeepsTheInvariant : Obligations.StepKeepsTheInvariant := by
  intro s t hs hstep
  have hconsume : s.consume.Inv := hs
  obtain rfl | rfl | ⟨i, hexec⟩ := step_next hstep
  · exact hs
  · exact hconsume
  · exact exec_inv hconsume hexec

/-! ### At reset -/

theorem resetFor_inv {c : Config} (h : c.wf = true) : (State.resetFor c).Inv := by
  have hzero (i : Fin 8) : line 0x00#8 i = false := by simp [line]
  exact ⟨h, ⟨rfl, rfl, nofun⟩, ⟨hzero _, fun _ => hzero _⟩, ⟨rfl, rfl, rfl, rfl⟩, nofun⟩

/-- Settles O35: State.reset is the reset state of configuration D, which is well formed. -/
theorem invariantAtReset : Obligations.InvariantAtReset :=
  ⟨resetFor_inv (by decide), fun _ => resetFor_inv⟩

/-- Settles O36: `Engine.reset` and `Observer.reset` list these values. -/
theorem resetState : Obligations.ResetState :=
  fun _ => ⟨⟨rfl, rfl, rfl, rfl, rfl, rfl⟩, rfl, rfl, rfl, rfl, rfl, rfl, rfl, rfl⟩

end Sys2Proof.Machine
end

section
/-! PROOFS. How the controller takes a byte transfer (R57, R76, R78, R111, R113, R115): the two frames of a nibble
bring it that nibble, and the four frames and the wait of a byte that byte's word. -/

namespace Sys2Proof.Machine

/-! ### A nibble on the lines -/

/-- R74: the lines of a frame that carry RS and the nibble. -/
theorem line_frame_rs_data {c : Config} (h : c.wf = true) (n : Nibble) (rs blv e : Bool) :
    line (frame c n rs blv e) c.pinmap.rs = rs ∧
      line (frame c n rs blv e) c.pinmap.d4 = n.getLsbD 0 ∧ line (frame c n rs blv e) c.pinmap.d5 = n.getLsbD 1 ∧
      line (frame c n rs blv e) c.pinmap.d6 = n.getLsbD 2 ∧ line (frame c n rs blv e) c.pinmap.d7 = n.getLsbD 3 := by
  have hnodup := pinmap_nodup h
  simp only [PinMap.positions, List.nodup_cons, List.mem_cons, List.not_mem_nil, or_false, not_or] at hnodup
  obtain ⟨hrs, hrw, he, hbl, hd4, hd5, hd6, -⟩ := hnodup
  simp [frame, line_or, line_signal, hrs, hrw, he, hbl, hd4, hd5, hd6, eq_comm]

theorem line_frame_rs {c : Config} (h : c.wf = true) (n : Nibble) (rs blv e : Bool) :
    line (frame c n rs blv e) c.pinmap.rs = rs := (line_frame_rs_data h n rs blv e).1

/-- R74, R111: D7..D4 of a frame carry its nibble. -/
theorem dataNibble_frame {c : Config} (h : c.wf = true) (n : Nibble) (rs blv e : Bool) :
    dataNibble c (frame c n rs blv e) = n := by
  obtain ⟨-, h4, h5, h6, h7⟩ := line_frame_rs_data h n rs blv e
  have hbits : ∀ n : Nibble, BitVec.ofBool (n.getLsbD 3) ++ BitVec.ofBool (n.getLsbD 2) ++
      BitVec.ofBool (n.getLsbD 1) ++ BitVec.ofBool (n.getLsbD 0) = n := by decide
  rw [dataNibble, h4, h5, h6, h7, hbits]

/-- R41, R76: a byte is its two nibbles. -/
theorem hiNibble_append_loNibble (v : Byte) : hiNibble v ++ loNibble v = v := by
  revert v
  decide

theorem takeAll_singleton (c : Config) (ev : Event) (o : Observer) : o.takeAll c [ev] = o.take c ev := rfl

/-- R108, R111: where E does not fall, a write is the latch's alone. -/
theorem take_write_of_no_edge {c : Config} {o : Observer} (hrun : o.running = true) {f : Frame}
    (h : line o.latch c.pinmap.e = false ∨ line f c.pinmap.e = true) :
    o.take c (.busWrite c.i2cAddr f true) = { o with latch := f } := by
  have hedge : (line o.latch c.pinmap.e && !line f c.pinmap.e) = false := by
    obtain h | h := h <;> simp [h]
  simp [Observer.take, hrun, Observer.latchTo, hedge]

/-- R70, R74, R111: the second frame of a nibble brings an idle controller the nibble. -/
theorem take_frame_fall {c : Config} {o : Observer} (hwf : c.wf = true) (hrun : o.running = true) (hbusy : o.busy = 0)
    {n : Nibble} {rs bl : Bool} (hlatch : o.latch = frame c n rs bl true) :
    o.take c (.busWrite c.i2cAddr (frame c n rs bl false) true) =
      ({ o with latch := frame c n rs bl false } : Observer).takeNibble n rs := by
  have hidle : ¬ 0 < o.busy := by omega
  simp [Observer.take, hrun, Observer.latchTo, Observer.fallingEdge, hlatch, hidle, line_frame_e hwf,
    heldLines_frame, line_frame_rw hwf, dataNibble_frame hwf, line_frame_rs hwf]

/-- R70, R74, R111: the two frames of a nibble bring an idle controller that nibble, once, whatever the latch held
before them. -/
theorem takeAll_nibbleFrames {c : Config} {o : Observer} (hwf : c.wf = true) (hrun : o.running = true)
    (hbusy : o.busy = 0) (n : Nibble) (rs bl : Bool) :
    o.takeAll c (writeEvents c (nibbleFrames c n rs bl)) =
      ({ o with latch := frame c n rs bl false } : Observer).takeNibble n rs := by
  change (o.take c (.busWrite c.i2cAddr (frame c n rs bl true) true)).take c
    (.busWrite c.i2cAddr (frame c n rs bl false) true) = _
  rw [take_write_of_no_edge hrun (.inr (line_frame_e hwf n rs bl true))]
  exact take_frame_fall (o := { o with latch := frame c n rs bl true }) hwf hrun hbusy rfl

/-! ### A nibble in the controller -/

theorem takeNibble_eight {o : Observer} (ho : o.ifmode = .eight) (n : Nibble) (rs : Bool) :
    o.takeNibble n rs = o.drawRest.execute (n ++ floatingNibble o.drawValue) rs := by
  simp [Observer.takeNibble, ho]

theorem takeNibble_fourHi {o : Observer} (ho : o.ifmode = .fourHi) (n : Nibble) (rs : Bool) :
    o.takeNibble n rs = { o with ifmode := .fourLo n rs } := by
  simp [Observer.takeNibble, ho]

theorem takeNibble_fourLo {o : Observer} {h : Nibble} {rs : Bool} (ho : o.ifmode = .fourLo h rs) (n : Nibble) :
    o.takeNibble n rs = { o with ifmode := .fourHi }.execute (h ++ n) rs := by
  simp [Observer.takeNibble, ho]

/-! ### A byte -/

/-- R57, R76, R78: the frames and the wait of a byte transfer make an aligned controller execute the byte, and then
run its busy time down. -/
theorem takeAll_transferEvents {c : Config} {o : Observer} (hwf : c.wf = true) (ho : o.Aligned) (bl : Bool) (v : Byte)
    (m : Mode) (t : Nat) :
    o.takeAll c (transferEvents c bl v m t) =
      ({ o.execute v (rsOf m) with latch := frame c (loNibble v) (rsOf m) bl false } : Observer).take c (.wait t) := by
  obtain ⟨hrun, hmode, hbusy⟩ := ho
  have hevents : transferEvents c bl v m t = writeEvents c (nibbleFrames c (hiNibble v) (rsOf m) bl) ++
      (writeEvents c (nibbleFrames c (loNibble v) (rsOf m) bl) ++ [Event.wait t]) := by
    simp only [transferEvents, encodeFrames, writeEvents, List.map_append, List.append_assoc]
  have hback (f : Frame) : ({ o with latch := f, ifmode := .fourHi } : Observer) = { o with latch := f } := by
    rw [← hmode]
  rw [hevents, takeAll_append, takeAll_append, takeAll_nibbleFrames hwf hrun hbusy, takeNibble_fourHi (by exact hmode),
    takeAll_nibbleFrames hwf (by exact hrun) (by exact hbusy), takeNibble_fourLo rfl, hback,
    hiNibble_append_loNibble, execute_latch, takeAll_singleton]

end Sys2Proof.Machine
end

section
/-! PROOFS. Words by their execution times (R112, R113, R115), what a transfer of one leaves, and the bootstrap
(R87, R129). -/

namespace Sys2Proof.Machine

/-! ### Execution times -/

/-- R115: the execution time of a word; none for the undefined word (log entry 27), for a read cycle and for what is
no word. -/
def execTime : Instr → Option Nat
  | .clearDisplay | .returnHome _ => some longTime
  | .entryModeSet _ _ | .displayControl _ _ _ | .cursorDisplayShift _ _ _ | .functionSet _ _ _ _
  | .setCgramAddr _ | .setDdramAddr _ | .writeData _ => some shortTime
  | _ => none

theorem execTime_le {i : Instr} {t : Nat} (h : execTime i = some t) : t ≤ longTime := by
  cases i with
  | clearDisplay | returnHome => cases h; exact le_rfl
  | entryModeSet | displayControl | cursorDisplayShift | functionSet | setCgramAddr | setDdramAddr | writeData =>
    cases h
    decide
  | _ => cases h

/-- R115, R118: a word with an execution time takes it, and raises no fault. -/
theorem runWord_of_execTime {i : Instr} {t : Nat} (h : execTime i = some t) (o : Observer) :
    (o.runWord i).running = o.running ∧ (o.runWord i).busy = t := by
  cases i with
  | clearDisplay | returnHome | entryModeSet | displayControl | functionSet | setCgramAddr =>
    cases h
    exact ⟨rfl, rfl⟩
  | cursorDisplayShift sc rl x =>
    cases h
    cases sc <;> exact ⟨rfl, rfl⟩
  | setDdramAddr a =>
    cases h
    simp only [Observer.runWord, Observer.setDdramAddr]
    split <;> exact ⟨rfl, rfl⟩
  | writeData v =>
    cases h
    simp only [Observer.runWord, Observer.writeData]
    cases o.space <;> exact ⟨rfl, rfl⟩
  | _ => cases h

/-- R112, R123: only a function set moves the interface mode. -/
theorem runWord_ifmode {i : Instr} (h : ∀ dl n f x, i ≠ .functionSet dl n f x) (o : Observer) :
    (o.runWord i).ifmode = o.ifmode := by
  cases i with
  | functionSet dl n f x => exact absurd rfl (h dl n f x)
  | cursorDisplayShift sc rl x => cases sc <;> rfl
  | setDdramAddr a =>
    simp only [Observer.runWord, Observer.setDdramAddr]
    split <;> rfl
  | writeData v =>
    simp only [Observer.runWord, Observer.writeData]
    cases o.space <;> rfl
  | _ => rfl

/-- R81, R115: a wait as long as a controller's busy time makes it idle. -/
theorem take_wait_of_le {c : Config} {o : Observer} {t : Nat} (hrun : o.running = true) (h : o.busy ≤ t) :
    o.take c (.wait t) = { o with busy := 0 } := by
  simp [Observer.take, hrun, h]

/-- R76: the last frame of a byte transfer. -/
def sendLastFrame (c : Config) (bl : Bool) (v : Byte) (m : Mode) : Frame := frame c (loNibble v) (rsOf m) bl false

/-- The observer after the transfer of a word has settled, with the last frame in the latch. -/
def Observer.afterWord (i : Instr) (f : Frame) (o : Observer) : Observer := { o.runWord i with latch := f, busy := 0 }

theorem afterWord_aligned {i : Instr} {t : Nat} (htime : execTime i = some t) {o : Observer} (hrun : o.running = true)
    (hmode : (o.runWord i).ifmode = .fourHi) (f : Frame) : (o.afterWord i f).Aligned :=
  ⟨(runWord_of_execTime htime o).1.trans hrun, hmode, rfl⟩

/-- R43, R112: a word that is no function set leaves an aligned controller aligned. -/
theorem Observer.Aligned.afterWord {o : Observer} (ho : o.Aligned) {i : Instr} {t : Nat} (htime : execTime i = some t)
    (hi : ∀ dl n f x, i ≠ .functionSet dl n f x) (f : Frame) : (o.afterWord i f).Aligned := by
  obtain ⟨hrun, hmode, -⟩ := ho
  exact afterWord_aligned htime hrun ((runWord_ifmode hi o).trans hmode) f

/-- R43, R78, R115: a byte transfer with a settle delay that covers its word's execution time: an aligned controller
executes the word and is idle again. -/
theorem takeAll_transferEvents_word {c : Config} {o : Observer} (hwf : c.wf = true) (ho : o.Aligned) {v : Byte}
    {m : Mode} {i : Instr} (hword : decodeWord (wordOf v (rsOf m)) = i) {u t : Nat} (htime : execTime i = some u)
    (hut : u ≤ t) (bl : Bool) :
    o.takeAll c (transferEvents c bl v m t) =
      o.afterWord i (sendLastFrame c bl v m) := by
  obtain ⟨hrun, hbusy⟩ := runWord_of_execTime htime o
  rw [takeAll_transferEvents hwf ho, Observer.execute, hword]
  exact take_wait_of_le (hrun.trans ho.1) (hbusy.trans_le hut)

/-! ### The bootstrap -/

/-- R112, R115: the observer runs, the interface is in one of the modes `ms`, and the controller is busy for at most
`t`. -/
def Observer.SettlesIn (ms : Set IfMode) (t : Nat) (o : Observer) : Prop :=
  o.running = true ∧ o.ifmode ∈ ms ∧ o.busy ≤ t

theorem settlesIn_fourHi_iff {o : Observer} : o.SettlesIn {.fourHi} 0 ↔ o.Aligned := by
  simp [Observer.SettlesIn]

theorem Observer.SettlesIn.mono {ms ms' : Set IfMode} {t t' : Nat} {o : Observer} (h : o.SettlesIn ms t)
    (hms : ms ⊆ ms') (ht : t ≤ t') : o.SettlesIn ms' t' := by
  obtain ⟨hrun, hmode, hbusy⟩ := h
  exact ⟨hrun, hms hmode, hbusy.trans ht⟩

/-- R79: the frames and the wait of a bootstrap nibble. -/
theorem takeAll_bootEvents {c : Config} {o : Observer} (hwf : c.wf = true) (hrun : o.running = true)
    (hbusy : o.busy = 0) (bl : Bool) (n : Nibble) (t : Nat) :
    o.takeAll c (bootEvents c bl n t) =
      (({ o with latch := frame c n false bl false } : Observer).takeNibble n false).take c (.wait t) := by
  have hevents : bootEvents c bl n t = writeEvents c (nibbleFrames c n false bl) ++ [Event.wait t] := by
    simp only [bootEvents, nibbleFrames]
  rw [hevents, takeAll_append, takeAll_nibbleFrames hwf hrun hbusy, takeAll_singleton]

/-- R79, R115: a bootstrap nibble whose delay covers what the nibble starts. -/
theorem bootEvents_settlesIn {c : Config} {ms ms' : Set IfMode} {n : Nibble} {t : Nat} (hwf : c.wf = true)
    (hnibble : ∀ o : Observer, o.SettlesIn ms 0 → (o.takeNibble n false).SettlesIn ms' t) (bl : Bool) {o : Observer}
    (ho : o.SettlesIn ms 0) : (o.takeAll c (bootEvents c bl n t)).SettlesIn ms' 0 := by
  obtain ⟨hrun, hmode, hbusy⟩ := ho
  obtain ⟨hrun', hmode', hbusy'⟩ := hnibble { o with latch := frame c n false bl false } ⟨hrun, hmode, hbusy⟩
  rw [takeAll_bootEvents hwf hrun (Nat.le_zero.mp hbusy), take_wait_of_le hrun' hbusy']
  exact ⟨hrun', hmode', le_rfl⟩

/-- R58, R63: with the nibble 0x3 or 0x2 first, a word is a function set, with DL = 1 or DL = 0. -/
theorem decodeWord_bootNibble (x : Nibble) :
    decodeWord (wordOf (0x3#4 ++ x) false) =
        .functionSet true (x.getLsbD 3) (x.getLsbD 2) (x.extractLsb' 0 2) ∧
      decodeWord (wordOf (0x2#4 ++ x) false) =
        .functionSet false (x.getLsbD 3) (x.getLsbD 2) (x.extractLsb' 0 2) := by
  revert x
  decide

theorem execute_three_settlesIn (x : Nibble) {o : Observer} (hrun : o.running = true) :
    (o.execute (0x3#4 ++ x) false).SettlesIn {.eight} shortTime := by
  rw [Observer.execute, (decodeWord_bootNibble x).1]
  exact ⟨hrun, rfl, le_rfl⟩

theorem takeNibble_three_of_eight {o : Observer} (hrun : o.running = true) (hmode : o.ifmode = .eight) :
    (o.takeNibble 0x3#4 false).SettlesIn {.eight} shortTime := by
  rw [takeNibble_eight hmode]
  exact execute_three_settlesIn _ hrun

theorem takeNibble_three_of_held {o : Observer} (hrun : o.running = true) (hmode : o.ifmode = .fourLo 0x3#4 false) :
    (o.takeNibble 0x3#4 false).SettlesIn {.eight} shortTime := by
  rw [takeNibble_fourLo hmode]
  exact execute_three_settlesIn _ hrun

theorem takeNibble_three_of_fourHi {o : Observer} (hrun : o.running = true) (hmode : o.ifmode = .fourHi)
    (hbusy : o.busy ≤ 0) : (o.takeNibble 0x3#4 false).SettlesIn {.fourLo 0x3#4 false} 0 := by
  rw [takeNibble_fourHi hmode]
  exact ⟨hrun, rfl, hbusy⟩

/-- R113: a word that ends in the nibble 0x3 has an execution time. -/
theorem execTime_append_three (h : Nibble) (rs : Bool) :
    ∃ t, execTime (decodeWord (wordOf (h ++ 0x3#4) rs)) = some t := by
  rw [← Option.isSome_iff_exists]
  revert h rs
  decide

/-- R112, R123: a word leaves the interface mode, or is a function set and chooses it. -/
theorem runWord_ifmode_mem (i : Instr) {o : Observer} (ho : o.ifmode = .fourHi) :
    (o.runWord i).ifmode ∈ ({.eight, .fourHi} : Set IfMode) := by
  by_cases h : ∃ dl n f x, i = .functionSet dl n f x
  · obtain ⟨dl, n, f, x, rfl⟩ := h
    cases dl <;> simp [Observer.runWord, Observer.functionSet]
  · rw [runWord_ifmode fun dl n f x hi => h ⟨dl, n, f, x, hi⟩, ho]
    simp

/-- R113, R115: whatever nibble was held, 0x3 completes a word with an execution time. -/
theorem execute_append_three_settlesIn (h : Nibble) (rs : Bool) {o : Observer} (hrun : o.running = true)
    (hmode : o.ifmode = .fourHi) : (o.execute (h ++ 0x3#4) rs).SettlesIn {.eight, .fourHi} longTime := by
  obtain ⟨t, htime⟩ := execTime_append_three h rs
  obtain ⟨hrun', hbusy'⟩ := runWord_of_execTime htime o
  exact ⟨hrun'.trans hrun, runWord_ifmode_mem _ hmode, hbusy'.trans_le (execTime_le htime)⟩

/-- R129: the first nibble 0x3, in any interface mode. -/
theorem firstThree_settlesIn (o : Observer) (ho : o.SettlesIn Set.univ 0) :
    (o.takeNibble 0x3#4 false).SettlesIn {.eight, .fourHi, .fourLo 0x3#4 false} longTime := by
  obtain ⟨hrun, -, hbusy⟩ := ho
  cases hmode : o.ifmode with
  | eight => exact (takeNibble_three_of_eight hrun hmode).mono (by simp) (by decide)
  | fourHi => exact (takeNibble_three_of_fourHi hrun hmode hbusy).mono (by simp) (Nat.zero_le _)
  | fourLo h r =>
    have hword (rs : Bool) {o' : Observer} (hrun : o'.running = true) (hmode : o'.ifmode = .fourHi) :
        (o'.execute (h ++ 0x3#4) rs).SettlesIn {.eight, .fourHi, .fourLo 0x3#4 false} longTime :=
      (execute_append_three_settlesIn h rs hrun hmode).mono (by simp [Set.insert_subset_iff]) le_rfl
    simp only [Observer.takeNibble, hmode]
    split
    · exact hword _ hrun rfl
    · exact hword _ hrun rfl

/-- R129: the second nibble 0x3 is held, or makes the interface 8 bits wide. -/
theorem secondThree_settlesIn (o : Observer) (ho : o.SettlesIn {.eight, .fourHi, .fourLo 0x3#4 false} 0) :
    (o.takeNibble 0x3#4 false).SettlesIn {.eight, .fourLo 0x3#4 false} shortTime := by
  obtain ⟨hrun, hmode | hmode | hmode, hbusy⟩ := ho
  · exact (takeNibble_three_of_eight hrun hmode).mono (by simp) le_rfl
  · exact (takeNibble_three_of_fourHi hrun hmode hbusy).mono (by simp) (Nat.zero_le _)
  · exact (takeNibble_three_of_held hrun hmode).mono (by simp) le_rfl

/-- R129: after the third nibble 0x3 the interface is 8 bits wide. -/
theorem thirdThree_settlesIn (o : Observer) (ho : o.SettlesIn {.eight, .fourLo 0x3#4 false} 0) :
    (o.takeNibble 0x3#4 false).SettlesIn {.eight} shortTime := by
  obtain ⟨hrun, hmode | hmode, -⟩ := ho
  · exact takeNibble_three_of_eight hrun hmode
  · exact takeNibble_three_of_held hrun hmode

/-- R129: the nibble 0x2 makes an 8-bit interface 4 bits wide. -/
theorem lastTwo_settlesIn (o : Observer) (ho : o.SettlesIn {.eight} 0) :
    (o.takeNibble 0x2#4 false).SettlesIn {.fourHi} shortTime := by
  obtain ⟨hrun, hmode, -⟩ := ho
  rw [takeNibble_eight hmode, Observer.execute, (decodeWord_bootNibble _).2]
  exact ⟨hrun, rfl, le_rfl⟩

/-- R87, R129: the bootstrap aligns a running controller whose busy time T_POWER_ON covers. -/
theorem takeAll_bootstrapEvents_aligned {c : Config} {o : Observer} (hwf : c.wf = true) (hrun : o.running = true)
    (hbusy : o.busy ≤ c.tPowerOn) (bl : Bool) : (o.takeAll c (bootstrapEvents c bl)).Aligned := by
  obtain ⟨-, hboot1, hboot2, hboot3, hcmd, -, -⟩ := times_of_wf hwf
  have hlong : longTime ≤ c.tBoot1 := le_trans (by decide) hboot1
  have hshort {t : Nat} (h : 37 ≤ t) : shortTime ≤ t := h
  have h0 : (o.takeAll c [.wait c.tPowerOn]).SettlesIn Set.univ 0 := by
    rw [takeAll_singleton, take_wait_of_le hrun hbusy]
    exact ⟨hrun, trivial, le_rfl⟩
  have h1 := bootEvents_settlesIn hwf (fun o ho => (firstThree_settlesIn o ho).mono le_rfl hlong) bl h0
  have h2 := bootEvents_settlesIn hwf
    (fun o ho => (secondThree_settlesIn o ho).mono le_rfl (hshort (le_trans (by decide) hboot2))) bl h1
  have h3 := bootEvents_settlesIn hwf
    (fun o ho => (thirdThree_settlesIn o ho).mono le_rfl (hshort (le_trans (by decide) hboot3))) bl h2
  have h4 := bootEvents_settlesIn hwf (fun o ho => (lastTwo_settlesIn o ho).mono le_rfl (hshort hcmd)) bl h3
  simp only [bootstrapEvents, takeAll_append]
  exact settlesIn_fourHi_iff.mp h4

end Sys2Proof.Machine
end

section
/-! PROOFS. An engine and its display stay in step (R43, R118, R128, R151): each word a request sends keeps the
registers in agreement with the mirrors, or puts them there. -/

namespace Sys2Proof.Machine

/-! ### The registers and the mirrors -/

/-- R19, R20, R21, R128: `State.MirrorsAgree` of the values it reads. -/
def Observer.Agrees (c : Config) (ctrl : BitVec 3) (entry : BitVec 2) (o : Observer) : Prop :=
  o.dl = false ∧ o.n = fsN c ∧ o.f = fsF c ∧ o.d = ctrlD ctrl ∧ o.c = ctrlC ctrl ∧ o.b = ctrlB ctrl ∧
    o.s = entryS entry ∧ (entryId entry = true → o.id = true) ∧ o.space = .dd ∧
    validDdram o.n o.ac.toNat = true

theorem mirrorsAgree_iff {s : State} : s.MirrorsAgree ↔ s.obs.Agrees s.cfg s.eng.ctrl s.eng.entry := Iff.rfl

theorem entryId_entryOf (inc sh : Bool) : entryId (entryOf inc sh) = inc := by
  revert inc sh
  decide

theorem entryS_entryOf (inc sh : Bool) : entryS (entryOf inc sh) = sh := by
  revert inc sh
  decide

theorem validDdram_zero (twoLine : Bool) : validDdram twoLine 0 = true := by
  cases twoLine <;> rfl

/-- R126: the counter's step stays among the addresses that exist. -/
theorem validDdram_acStep {twoLine : Bool} {a : DdAddr} (h : validDdram twoLine a.toNat = true) (up : Bool) :
    validDdram twoLine (acStep twoLine a up).toNat = true := by
  revert twoLine a up
  decide

/-- R124: the draw for a missing address is one that exists. -/
theorem validDdram_validPick (twoLine : Bool) (v : Byte) : validDdram twoLine (validPick twoLine v).toNat = true := by
  revert twoLine v
  decide

/-! ### The words that requests send -/

section Words

variable {c : Config} {ctrl : BitVec 3} {entry : BitVec 2} {o : Observer}

theorem clearDisplay_agrees (h : o.Agrees c ctrl entry) : (o.runWord .clearDisplay).Agrees c ctrl entry := by
  obtain ⟨hdl, hn, hf, hd, hc, hb, hs, -, -, -⟩ := h
  exact ⟨hdl, hn, hf, hd, hc, hb, hs, fun _ => rfl, rfl, validDdram_zero _⟩

theorem returnHome_agrees (x : BitVec 1) (h : o.Agrees c ctrl entry) :
    (o.runWord (.returnHome x)).Agrees c ctrl entry := by
  obtain ⟨hdl, hn, hf, hd, hc, hb, hs, hid, -, -⟩ := h
  exact ⟨hdl, hn, hf, hd, hc, hb, hs, hid, rfl, validDdram_zero _⟩

theorem entryModeSet_agrees (inc sh : Bool) (h : o.Agrees c ctrl entry) :
    (o.runWord (.entryModeSet inc sh)).Agrees c ctrl (entryOf inc sh) := by
  obtain ⟨hdl, hn, hf, hd, hc, hb, -, -, hspace, hac⟩ := h
  exact ⟨hdl, hn, hf, hd, hc, hb, (entryS_entryOf inc sh).symm, (entryId_entryOf inc sh).symm.trans, hspace, hac⟩

theorem displayControl_agrees (m : BitVec 3) (h : o.Agrees c ctrl entry) :
    (o.runWord (.displayControl (ctrlD m) (ctrlC m) (ctrlB m))).Agrees c m entry := by
  obtain ⟨hdl, hn, hf, -, -, -, hs, hid, hspace, hac⟩ := h
  exact ⟨hdl, hn, hf, rfl, rfl, rfl, hs, hid, hspace, hac⟩

theorem cursorDisplayShift_agrees (sc rl : Bool) (x : BitVec 2) (h : o.Agrees c ctrl entry) :
    (o.runWord (.cursorDisplayShift sc rl x)).Agrees c ctrl entry := by
  obtain ⟨hdl, hn, hf, hd, hc, hb, hs, hid, hspace, hac⟩ := h
  cases sc with
  | true => exact ⟨hdl, hn, hf, hd, hc, hb, hs, hid, hspace, hac⟩
  | false => exact ⟨hdl, hn, hf, hd, hc, hb, hs, hid, hspace, validDdram_acStep hac rl⟩

/-- R124: whatever address the word names, the counter ends at one that exists. -/
theorem setDdramAddr_agrees (a : DdAddr) (h : o.Agrees c ctrl entry) :
    (o.runWord (.setDdramAddr a)).Agrees c ctrl entry := by
  obtain ⟨hdl, hn, hf, hd, hc, hb, hs, hid, -, -⟩ := h
  simp only [Observer.runWord, Observer.setDdramAddr]
  split
  · next ha => exact ⟨hdl, hn, hf, hd, hc, hb, hs, hid, rfl, ha⟩
  · exact ⟨hdl, hn, hf, hd, hc, hb, hs, hid, rfl, validDdram_validPick _ _⟩

theorem writeData_agrees (v : Byte) (h : o.Agrees c ctrl entry) : (o.runWord (.writeData v)).Agrees c ctrl entry := by
  obtain ⟨hdl, hn, hf, hd, hc, hb, hs, hid, hspace, hac⟩ := h
  simp only [Observer.runWord, Observer.writeData, hspace]
  exact ⟨hdl, hn, hf, hd, hc, hb, hs, hid, rfl, validDdram_acStep hac o.id⟩

end Words

/-! ### The bytes that requests send (R58, R59) -/

theorem decodeWord_entryByte (inc sh : Bool) : decodeWord (wordOf (entryByte inc sh) false) = .entryModeSet inc sh := by
  revert inc sh
  decide

theorem decodeWord_dispctlByte (d c b : Bool) :
    decodeWord (wordOf (dispctlByte d c b) false) = .displayControl d c b := by
  revert d c b
  decide

theorem decodeWord_ctrlByte (m : BitVec 3) :
    decodeWord (wordOf (ctrlByte m) false) = .displayControl (ctrlD m) (ctrlC m) (ctrlB m) := by
  revert m
  decide

theorem decodeWord_shiftByte (sc rl : Bool) :
    decodeWord (wordOf (shiftByte sc rl) false) = .cursorDisplayShift sc rl 0#2 := by
  revert sc rl
  decide

theorem decodeWord_funcsetByte (c : Config) :
    decodeWord (wordOf (funcsetByte c) false) = .functionSet false (fsN c) (fsF c) 0#2 := by
  unfold funcsetByte
  generalize fsN c = n, fsF c = f
  revert n f
  decide

theorem decodeWord_ddAddrByte (a : DdAddr) : decodeWord (wordOf (ddAddrByte a) false) = .setDdramAddr a := by
  revert a
  decide

theorem decodeWord_data (v : Byte) : decodeWord (wordOf v true) = .writeData v := by
  revert v
  decide

/-! ### A request through the controller -/

/-- R16: the events of a run that completes and reads nothing. -/
theorem RunCompletes.eq_map {c : Config} {ops : List MicroOp} {evs : List Event} (h : RunCompletes c ops evs)
    (hr : MicroOp.read ∉ ops) : evs = ops.map (opEvent c) := by
  induction h with
  | nil => rfl
  | @cons op ev ops evs hev _ ih =>
    rw [List.mem_cons, not_or] at hr
    rw [List.map_cons, ih hr.2]
    cases hev with
    | read v => exact absurd rfl hr.1
    | _ => rfl

theorem RunCompletes.eq_transferEvents {c : Config} {bl : Bool} {v : Byte} {m : Mode} {t : Nat} {evs : List Event}
    (h : RunCompletes c (sendOps c bl v m t) evs) : evs = transferEvents c bl v m t :=
  h.eq_map (by simp [sendOps])

/-- R43, R78, R151: a request that sends one word keeps the controller aligned, and leaves the agreement that the word
leaves. -/
theorem RunCompletes.send_inStep {c : Config} {bl : Bool} {v : Byte} {m : Mode} {t : Nat} {evs : List Event}
    (h : RunCompletes c (sendOps c bl v m t) evs) {o : Observer} (hwf : c.wf = true) (ho : o.Aligned) {i : Instr}
    (hword : decodeWord (wordOf v (rsOf m)) = i) {u : Nat} (htime : execTime i = some u) (hut : u ≤ t)
    (hi : ∀ dl n f x, i ≠ .functionSet dl n f x) {ctrl : BitVec 3} {entry : BitVec 2}
    (hagrees : (o.runWord i).Agrees c ctrl entry) :
    (o.takeAll c evs).Aligned ∧ (o.takeAll c evs).Agrees c ctrl entry := by
  rw [h.eq_transferEvents, takeAll_transferEvents_word hwf ho hword htime hut]
  exact ⟨ho.afterWord htime hi _, hagrees⟩

/-- R87: what INIT's steps 2 to 6 make of the observer. -/
def Observer.setUp (c : Config) (bl : Bool) (o : Observer) : Observer :=
  ((((o.afterWord (.functionSet false (fsN c) (fsF c) 0#2) (sendLastFrame c bl (funcsetByte c) .instruction)).afterWord
    (.displayControl false false false)
      (sendLastFrame c bl (dispctlByte false false false) .instruction)).afterWord
    .clearDisplay (sendLastFrame c bl clearByte .instruction)).afterWord
    (.entryModeSet true false) (sendLastFrame c bl (entryByte true false) .instruction)).afterWord
    (.displayControl true false false) (sendLastFrame c bl (dispctlByte true false false) .instruction)

/-- R87, R130: an aligned controller runs the five words of INIT's steps 2 to 6, and is aligned again. -/
theorem takeAll_setupOps {c : Config} {o : Observer} (hwf : c.wf = true) (ho : o.Aligned) (bl : Bool) :
    o.takeAll c ((setupOps c bl).map (opEvent c)) = o.setUp c bl ∧ (o.setUp c bl).Aligned := by
  obtain ⟨-, -, -, -, hcmd, hclear, -⟩ := times_of_wf hwf
  have hevents : (setupOps c bl).map (opEvent c) =
      transferEvents c bl (funcsetByte c) .instruction c.tCmd ++
        transferEvents c bl (dispctlByte false false false) .instruction c.tCmd ++
        transferEvents c bl clearByte .instruction c.tClear ++
        transferEvents c bl (entryByte true false) .instruction c.tCmd ++
        transferEvents c bl (dispctlByte true false false) .instruction c.tCmd := rfl
  have h1 := afterWord_aligned (i := .functionSet false (fsN c) (fsF c) 0#2) rfl ho.1 rfl
    (sendLastFrame c bl (funcsetByte c) .instruction)
  have h2 := h1.afterWord (i := .displayControl false false false) rfl nofun
    (sendLastFrame c bl (dispctlByte false false false) .instruction)
  have h3 := h2.afterWord (i := .clearDisplay) rfl nofun (sendLastFrame c bl clearByte .instruction)
  have h4 := h3.afterWord (i := .entryModeSet true false) rfl nofun
    (sendLastFrame c bl (entryByte true false) .instruction)
  have h5 := h4.afterWord (i := .displayControl true false false) rfl nofun
    (sendLastFrame c bl (dispctlByte true false false) .instruction)
  refine ⟨?_, h5⟩
  rw [hevents, takeAll_append, takeAll_append, takeAll_append, takeAll_append,
    takeAll_transferEvents_word hwf ho (m := .instruction) (decodeWord_funcsetByte c) rfl hcmd,
    takeAll_transferEvents_word hwf h1 (m := .instruction) (decodeWord_dispctlByte _ _ _) rfl hcmd,
    takeAll_transferEvents_word hwf h2 (m := .instruction) (i := .clearDisplay) rfl rfl hclear,
    takeAll_transferEvents_word hwf h3 (m := .instruction) (decodeWord_entryByte _ _) rfl hcmd,
    takeAll_transferEvents_word hwf h4 (m := .instruction) (decodeWord_dispctlByte _ _ _) rfl hcmd]
  rfl

theorem setUp_agrees (c : Config) (bl : Bool) (o : Observer) : (o.setUp c bl).Agrees c 0b100#3 0b10#2 :=
  ⟨rfl, rfl, rfl, rfl, rfl, rfl, rfl, fun _ => rfl, rfl, validDdram_zero _⟩

/-- R129, R130: an INIT that completes aligns a running controller whose busy time T_POWER_ON covers, and puts its
registers in agreement with the mirrors. -/
theorem RunCompletes.init_inStep {c : Config} {bl : Bool} {evs : List Event} (h : RunCompletes c (initOps c bl) evs)
    {o : Observer} (hwf : c.wf = true) (hrun : o.running = true) (hbusy : o.busy ≤ c.tPowerOn) :
    (o.takeAll c evs).Aligned ∧ (o.takeAll c evs).Agrees c 0b100#3 0b10#2 := by
  have hread : MicroOp.read ∉ initOps c bl := by simp [initOps, bootstrapOps, setupOps, bootOps, sendOps]
  obtain ⟨hsetup, haligned⟩ := takeAll_setupOps hwf (takeAll_bootstrapEvents_aligned hwf hrun hbusy bl) bl
  have hevents : evs = bootstrapEvents c bl ++ (setupOps c bl).map (opEvent c) := h.eq_map hread
  rw [hevents, takeAll_append, hsetup]
  exact ⟨haligned, setUp_agrees c bl _⟩

/-- R43, R151: a request that completes leaves the controller of an engine in step aligned, with its registers in
agreement with the mirrors that the request leaves. -/
theorem completed_inStep {i : Instr} {s : State} {evs : List Event} (hs : s.Inv) (hstep : s.InStep)
    (hrun : RunCompletes s.cfg (requestOps i s) evs) :
    (s.obs.takeAll s.cfg evs).Aligned ∧
      (s.obs.takeAll s.cfg evs).Agrees s.cfg (completedEngine i s.eng).ctrl (completedEngine i s.eng).entry := by
  obtain ⟨hwf, -, ⟨-, he⟩, -, -⟩ := hs
  obtain ⟨-, hsync, ho, hlatch, hmirrors⟩ := hstep
  have hagrees := mirrorsAgree_iff.mp hmirrors
  obtain ⟨-, -, -, -, hcmd, hclear, hhome⟩ := times_of_wf hwf
  have ⟨hrunning, _, hbusy⟩ := ho
  cases i with
  | init => exact hrun.init_inStep hwf hrunning (hbusy.trans_le (Nat.zero_le _))
  | clear => exact hrun.send_inStep hwf ho (i := .clearDisplay) rfl rfl hclear nofun (clearDisplay_agrees hagrees)
  | home => exact hrun.send_inStep hwf ho (i := .returnHome 0#1) rfl rfl hhome nofun (returnHome_agrees _ hagrees)
  | setcur line col =>
    exact hrun.send_inStep hwf ho (decodeWord_ddAddrByte _) rfl hcmd nofun (setDdramAddr_agrees _ hagrees)
  | putc b => exact hrun.send_inStep hwf ho (decodeWord_data b) rfl hcmd nofun (writeData_agrees b hagrees)
  | display | cursor | blink =>
    exact hrun.send_inStep hwf ho (decodeWord_ctrlByte _) rfl hcmd nofun (displayControl_agrees _ hagrees)
  | entry inc sh =>
    exact hrun.send_inStep hwf ho (decodeWord_entryByte inc sh) rfl hcmd nofun (entryModeSet_agrees inc sh hagrees)
  | shift sc rl =>
    exact hrun.send_inStep hwf ho (decodeWord_shiftByte sc rl) rfl hcmd nofun
      (cursorDisplayShift_agrees sc rl _ hagrees)
  | backlight on =>
    -- E is low in `shadow`, and so in the latch: the write is no edge.
    have hlow : line s.obs.latch s.cfg.pinmap.e = false := by rw [hlatch]; exact he hsync
    obtain rfl : evs = [.busWrite s.cfg.i2cAddr (backlightFrame s.cfg s.eng.shadow on) true] :=
      hrun.eq_map (by simp [requestOps])
    rw [takeAll_singleton, take_write_of_no_edge hrunning (.inl hlow)]
    exact ⟨ho, hagrees⟩
  | pread =>
    cases hrun with
    | cons hev hnil =>
      cases hnil
      cases hev
      simp only [takeAll_singleton, Observer.take, hrunning, if_true]
      exact ⟨ho, hagrees⟩
  | _ =>
    cases hrun
    exact ⟨ho, hagrees⟩

/-- Settles O53: the latch is the invariant's, and a request that neither answers at once nor completes is a BusError,
which sets `sync_lost`. -/
theorem requestsKeepInStep : Obligations.RequestsKeepInStep := by
  intro s t i hs hstep hi hnext hsync
  have hends := (exec_request_ends hi hnext).2
  obtain ⟨-, -, -, -, hlatch⟩ := exec_inv hs hnext
  cases hends with
  | quiet => exact hstep
  | completed evs data hrun =>
    have hready : (completedEngine i s.eng).fsm = .ready := by
      by_cases hinit : i = .init
      · rw [hinit]
        rfl
      · rw [completedEngine_of_ne hinit, committed_fsm hinit]
        exact hstep.1
    obtain ⟨ho, hagrees⟩ := completed_inStep hs hstep hrun
    exact ⟨hready, hsync, ho, hlatch ho.1 hready hsync, hagrees⟩
  | failed evs =>
    have hlost := failedEngine_syncLost i s.eng
    exact absurd (hlost.symm.trans hsync) (by decide)

end Sys2Proof.Machine
end

section
/-! PROOFS. Words, from the decoder to the encoder and back (R57, R58, R60). -/

namespace Sys2Proof

/-- R57: RS and RW stand in front of a word's byte, and choose what the byte is. -/
theorem decodeWord_append (v : Byte) :
    decodeWord (0b00#2 ++ v) = decodeInstruction v ∧ decodeWord (0b10#2 ++ v) = .writeData v ∧
      decodeWord (0b01#2 ++ v) = .readBusyAddr v ∧ decodeWord (0b11#2 ++ v) = .readData v := by
  have hbyte (hi : BitVec 2) : (hi ++ v).extractLsb' 0 8 = v := BitVec.extractLsb'_append_eq_right
  simp only [decodeWord, hbyte, BitVec.getLsbD_append]
  exact ⟨rfl, rfl, rfl, rfl⟩

/-- R57: a word is one of four values of RS and RW, and a byte. -/
theorem word_cases (w : BitVec 10) :
    ∃ v : Byte, w = 0b00#2 ++ v ∨ w = 0b10#2 ++ v ∨ w = 0b01#2 ++ v ∨ w = 0b11#2 ++ v := by
  have hclass : ∀ hi : BitVec 2, hi = 0b00#2 ∨ hi = 0b10#2 ∨ hi = 0b01#2 ∨ hi = 0b11#2 := by decide
  have hw : w = w.extractLsb' 8 2 ++ w.extractLsb' 0 8 := by
    rw [BitVec.extractLsb'_append_extractLsb'_eq_extractLsb' (by decide)]
    exact BitVec.extractLsb'_eq_self.symm
  refine ⟨w.extractLsb' 0 8, ?_⟩
  obtain h | h | h | h := hclass (w.extractLsb' 8 2) <;> rw [h] at hw
  · exact .inl hw
  · exact .inr (.inl hw)
  · exact .inr (.inr (.inl hw))
  · exact .inr (.inr (.inr hw))

/-- R58: a byte with RS = RW = 0 is written back as it was read. -/
theorem encode_decodeInstruction (v : Byte) : encode (decodeInstruction v) = .word (0b00#2 ++ v) := by
  revert v
  decide

/-- R57, R58, R60: a word is written back as it was read. -/
theorem encode_decodeWord (w : BitVec 10) : encode (decodeWord w) = .word w := by
  obtain ⟨v, rfl | rfl | rfl | rfl⟩ := word_cases w
  all_goals obtain ⟨hinstruction, hwrite, hbusy, hread⟩ := decodeWord_append v
  · rw [hinstruction, encode_decodeInstruction]
  · rw [hwrite]; rfl
  · rw [hbusy]; rfl
  · rw [hread]; rfl

/-- R58, R60: each row of the table is read back from its pattern, for every operand. -/
theorem decodeWord_encodeWord {i : Instr} {w : BitVec 10} (h : encodeWord i = some w) : decodeWord w = i := by
  cases i with
  | writeData v | readBusyAddr v | readData v =>
    cases h
    obtain ⟨-, hwrite, hbusy, hread⟩ := decodeWord_append v
    assumption
  | clearDisplay | noInstruction00 => cases h; rfl
  | returnHome x => cases h; revert x; decide
  | entryModeSet inc sh => cases h; revert inc sh; decide
  | displayControl d c b => cases h; revert d c b; decide
  | cursorDisplayShift sc rl x => cases h; revert sc rl x; decide
  | functionSet dl n f x => cases h; revert dl n f x; decide
  | setCgramAddr a => cases h; revert a; decide
  | setDdramAddr a => cases h; revert a; decide
  | _ => cases h

/-- R57, R58, R60: an instruction that is a word is decoded as one. -/
theorem decode_encode_word {i : Instr} {w : BitVec 10} (h : encodeWord i = some w) : (encode i).decode = .ok i := by
  simp only [encode, h, Item.decode, decodeWord_encodeWord h]

/-- R58: the table's match and mask, row by row. -/
theorem decodeInstruction_of_mask (v : Byte) :
    (v &&& 0xFF#8 = 0x01#8 → decodeInstruction v = .clearDisplay) ∧
    (v &&& 0xFE#8 = 0x02#8 → decodeInstruction v = .returnHome (v.extractLsb' 0 1)) ∧
    (v &&& 0xFC#8 = 0x04#8 → decodeInstruction v = .entryModeSet (v.getLsbD 1) (v.getLsbD 0)) ∧
    (v &&& 0xF8#8 = 0x08#8 → decodeInstruction v = .displayControl (v.getLsbD 2) (v.getLsbD 1) (v.getLsbD 0)) ∧
    (v &&& 0xF0#8 = 0x10#8 →
      decodeInstruction v = .cursorDisplayShift (v.getLsbD 3) (v.getLsbD 2) (v.extractLsb' 0 2)) ∧
    (v &&& 0xE0#8 = 0x20#8 →
      decodeInstruction v = .functionSet (v.getLsbD 4) (v.getLsbD 3) (v.getLsbD 2) (v.extractLsb' 0 2)) ∧
    (v &&& 0xC0#8 = 0x40#8 → decodeInstruction v = .setCgramAddr (v.extractLsb' 0 6)) ∧
    (v &&& 0x80#8 = 0x80#8 → decodeInstruction v = .setDdramAddr (v.extractLsb' 0 7)) ∧
    (v &&& 0xFF#8 = 0x00#8 → decodeInstruction v = .noInstruction00) := by
  revert v
  decide

/-- Settles O3: a word is RS and RW and a byte, and at RS = RW = 0 its byte is a row's. -/
theorem everyWordHasOneMeaning : Obligations.EveryWordHasOneMeaning := by
  refine ⟨encode_decodeWord, fun v => ?_⟩
  obtain ⟨hinstruction, hwrite, -, -⟩ := decodeWord_append v
  rw [hinstruction]
  simpa only [and_assoc] using And.intro (decodeInstruction_of_mask v) hwrite

end Sys2Proof
end

section
/-! PROOFS. Request lines, from the encoder to the decoder (R71): digits, tokens, and then every instruction. -/

namespace Sys2Proof

/-! ### Numbers -/

/-- R71: a decimal digit. -/
abbrev IsDecDigit (c : Char) : Prop := ∃ d < 10, c = digitChar d

theorem decValue_digitChar {d : Nat} (h : d < 10) : decValue (digitChar d) = some d := by
  revert d
  decide

/-- The digits written are decimal digits, in front of what is there. -/
theorem writeDigits_digits (fuel n : Nat) {acc : List Char} (hacc : ∀ c ∈ acc, IsDecDigit c) :
    ∀ c ∈ writeDigits fuel n acc, IsDecDigit c := by
  induction fuel generalizing n acc with
  | zero => exact hacc
  | succ fuel ih =>
    rw [writeDigits]
    split
    · next hn => exact List.forall_mem_cons.mpr ⟨⟨n, hn, rfl⟩, hacc⟩
    · exact ih _ (List.forall_mem_cons.mpr ⟨⟨n % 10, Nat.mod_lt _ (by decide), rfl⟩, hacc⟩)

theorem writeDigits_ne_nil (fuel n : Nat) {acc : List Char} (hacc : acc ≠ [] ∨ fuel ≠ 0) :
    writeDigits fuel n acc ≠ [] := by
  induction fuel generalizing n acc with
  | zero => simpa [writeDigits] using hacc
  | succ fuel ih =>
    rw [writeDigits]
    split
    · nofun
    · exact ih _ (.inl nofun)

/-- Reading the digits written gives the number, and goes on with what stood behind them. -/
theorem readDigits_writeDigits {fuel n : Nat} (h : n < fuel) (acc : List Char) :
    readDigits decValue 10 (writeDigits fuel n acc) 0 = readDigits decValue 10 acc n := by
  induction fuel generalizing n acc with
  | zero => omega
  | succ fuel ih =>
    rw [writeDigits]
    split
    · next hn => simp [readDigits, decValue_digitChar hn]
    · rw [ih (by omega), readDigits, decValue_digitChar (Nat.mod_lt n (by decide))]
      simp only [Nat.div_add_mod']

theorem writeNumber_digits (n : Nat) : ∀ c ∈ writeNumber n, IsDecDigit c := writeDigits_digits _ _ nofun

theorem writeNumber_ne_nil (n : Nat) : writeNumber n ≠ [] := writeDigits_ne_nil _ _ (.inr n.succ_ne_zero)

/-- R71: a string of decimal digits is not read as hexadecimal: it has no `x`. -/
theorem readNumber_of_digits {cs : List Char} (h : ∀ c ∈ cs, IsDecDigit c) (hne : cs ≠ []) :
    readNumber cs = readDigits decValue 10 cs 0 := by
  have hx : ¬ IsDecDigit 'x' := by decide
  unfold readNumber
  split
  · exact absurd (h 'x' (by simp)) hx
  · rfl
  · exact absurd rfl hne

/-- R71: a number is read as it was written. -/
theorem readNumber_writeNumber (n : Nat) : readNumber (writeNumber n) = some n := by
  rw [readNumber_of_digits (writeNumber_digits n) (writeNumber_ne_nil n), writeNumber,
    readDigits_writeDigits n.lt_succ_self, readDigits]

/-! ### Tokens -/

/-- R71: a character that stands inside a token: it ends none, and starts no comment and no quote. -/
abbrev IsPlain (c : Char) : Prop := c ∉ [';', ' ', '\t', ',', '\'']

theorem IsDecDigit.isPlain {c : Char} (h : IsDecDigit c) : IsPlain c := by
  obtain ⟨d, hd, rfl⟩ := h
  revert d
  decide

theorem lexLine_plain_cons {c : Char} (h : IsPlain c) (cs acc : List Char) :
    lexLine (c :: cs) acc = lexLine cs (c :: acc) := by
  simp only [IsPlain, List.mem_cons, List.not_mem_nil, or_false, not_or] at h
  rw [lexLine.eq_def]
  simp [h]

theorem lexLine_blank_cons (cs acc : List Char) : lexLine (' ' :: cs) acc = flushAtom acc (lexLine cs []) := by
  rw [lexLine.eq_def]
  rfl

theorem lexLine_comma_cons (cs acc : List Char) :
    lexLine (',' :: cs) acc = flushAtom acc (.comma :: lexLine cs []) := by
  rw [lexLine.eq_def]
  rfl

/-- Plain characters join the token that is being read. -/
theorem lexLine_plain_append {as : List Char} (h : ∀ c ∈ as, IsPlain c) (cs acc : List Char) :
    lexLine (as ++ cs) acc = lexLine cs (as.reverse ++ acc) := by
  induction as generalizing acc with
  | nil => rfl
  | cons c as ih =>
    obtain ⟨hc, has⟩ := List.forall_mem_cons.mp h
    rw [List.cons_append, lexLine_plain_cons hc, ih has, List.reverse_cons, List.append_assoc, List.singleton_append]

theorem flushAtom_reverse {as : List Char} (hne : as ≠ []) (ts : List Token) :
    flushAtom (as.reverse ++ []) ts = .atom as :: ts := by
  simp [flushAtom, hne]

section Tokens

variable {as bs : List Char} (ha : ∀ c ∈ as, IsPlain c) (hane : as ≠ [])
include ha hane

theorem lexLine_token : lexLine as [] = [.atom as] := by
  rw [← List.append_nil as, lexLine_plain_append ha, lexLine, flushAtom_reverse hane, List.append_nil]

theorem lexLine_token_blank (cs : List Char) : lexLine (as ++ ' ' :: cs) [] = .atom as :: lexLine cs [] := by
  rw [lexLine_plain_append ha, lexLine_blank_cons, flushAtom_reverse hane]

/-- R71: two operands are three tokens. -/
theorem lexLine_writePair (hb : ∀ c ∈ bs, IsPlain c) (hbne : bs ≠ []) :
    lexLine (writePair as bs) [] = [.atom as, .comma, .atom bs] := by
  rw [writePair, List.append_assoc, lexLine_plain_append ha, List.cons_append, List.cons_append, List.nil_append,
    lexLine_comma_cons, flushAtom_reverse hane, lexLine_blank_cons, lexLine_token hb hbne]
  rfl

end Tokens

theorem writeNumber_plain (n : Nat) : ∀ c ∈ writeNumber n, IsPlain c :=
  fun c hc => (writeNumber_digits n c hc).isPlain

/-! ### Requests -/

theorem decodeTokens_setcur (ts : List Token) :
    decodeTokens (.atom ['S', 'E', 'T', 'C', 'U', 'R'] :: ts) = operandsSetcur ts := rfl

theorem decodeTokens_putc (ts : List Token) : decodeTokens (.atom ['P', 'U', 'T', 'C'] :: ts) = operandsPutc ts := rfl

/-- R71: SETCUR, with its line and its column at any value. -/
theorem decodeLine_setcur (line col : Nat) :
    decodeLine (['S', 'E', 'T', 'C', 'U', 'R'] ++ ' ' :: writePair (writeNumber line) (writeNumber col)) =
      .ok (.setcur line col) := by
  have hname : ∀ c ∈ ['S', 'E', 'T', 'C', 'U', 'R'], IsPlain c := by simp [IsPlain]
  rw [decodeLine, lexLine_token_blank hname nofun, decodeTokens_setcur,
    lexLine_writePair (writeNumber_plain _) (writeNumber_ne_nil _) (writeNumber_plain _) (writeNumber_ne_nil _)]
  simp only [operandsSetcur, tokenNat, readNumber_writeNumber]

theorem decodeLine_putc (b : BitVec 8) :
    decodeLine (['P', 'U', 'T', 'C'] ++ ' ' :: writeNumber b.toNat) = .ok (.putc b) := by
  have hname : ∀ c ∈ ['P', 'U', 'T', 'C'], IsPlain c := by simp [IsPlain]
  rw [decodeLine, lexLine_token_blank hname nofun, decodeTokens_putc,
    lexLine_token (writeNumber_plain _) (writeNumber_ne_nil _)]
  simp only [operandsPutc, tokenNat, readNumber_writeNumber, b.isLt, if_true, BitVec.ofNat_toNat, BitVec.setWidth_eq]

/-- Settles O2: words are read back row by row, numbers digit by digit; a line of Bools, of no operand, or a
nibble, is one of a few, each evaluated. -/
theorem decodeOfEncodeIsIdentity : Obligations.DecodeOfEncodeIsIdentity := by
  intro i
  cases i with
  | setcur line col => exact decodeLine_setcur line col
  | putc b => exact decodeLine_putc b
  | bootNibble3 | bootNibble2 => rfl
  | init | clear | home | getbl | pread => rfl
  | display on | cursor on | blink on | backlight on => cases on <;> rfl
  | entry a b | shift a b => cases a <;> cases b <;> rfl
  | _ => exact decode_encode_word rfl

end Sys2Proof
end

section
/-! PROOFS. The tables' own examples (R58, R60, R63, R71), and what a step makes of its next input (R64, R68). -/

namespace Sys2Proof.Machine

/-- Settles O1: each input is closed, and the decoder is evaluated at it. -/
theorem writtenOutInputsDecode : Obligations.WrittenOutInputsDecode := by
  unfold Obligations.WrittenOutInputsDecode
  decide

/-- R64: a step runs what its next input decodes to, at the state without that input. -/
theorem step_of_inbox {s : State} {it : Item} {rest : List Item} (h : s.inbox = it :: rest) :
    step s = runDecoded it.decode { s with inbox := rest } := by
  simp only [step, State.consume, h, List.tail_cons]

theorem runDecoded_reject {e : DecodeError} (h : e ≠ .noRequest) (s : State) :
    runDecoded (.reject e) s = .refused (.undecodable e) := by
  cases e with
  | noRequest => exact absurd rfl h
  | _ => rfl

theorem decode_request (i : Instr) :
    (Item.request i).decode = if i.isRequest then .ok i else .reject .notARequest := rfl

/-- Settles O5: a step is `runDecoded`, whose rejections but a blank line are refusals. -/
theorem otherInputsAreRefusedByName : Obligations.OtherInputsAreRefusedByName := by
  refine ⟨fun s i rest hin hi => ?_, fun s i rest hin hi => ?_, fun s it rest e hin hdec he => ?_⟩
  · rw [step_of_inbox hin, decode_request, hi]
    exact runDecoded_reject (by decide) _
  · rw [step_of_inbox hin, decode_request, hi]
    rfl
  · rw [step_of_inbox hin, hdec, runDecoded_reject he]

end Sys2Proof.Machine
end

section
/-! PROOFS. The lines of every frame (R56, R74), and a byte transfer at an aligned controller (R57, R76, R113). -/

namespace Sys2Proof.Machine

/-- R56: the backlight level, by the configuration's polarity. -/
theorem blBit_eq_ite (c : Config) (on : Bool) : blBit c on = if c.blActiveHigh then on else !on := by
  unfold blBit
  cases c.blActiveHigh <;> simp

/-- Settles O8: the eight signals, each from its own lemma. -/
theorem frameLinesCarryTheirSignals : Obligations.FrameLinesCarryTheirSignals := by
  intro c n rs blv e hwf
  obtain ⟨hrs, h4, h5, h6, h7⟩ := line_frame_rs_data hwf n rs blv e
  have hbl := (line_frame_bl hwf n rs blv e).trans (blBit_eq_ite c blv)
  exact ⟨h4, h5, h6, h7, hrs, line_frame_rw hwf n rs blv e, line_frame_e hwf n rs blv e, hbl⟩

/-- Settles O50: the two nibbles of the byte, each by its two frames. -/
theorem byteTransferExecutesItsWord : Obligations.ByteTransferExecutesItsWord :=
  fun _ bl v m t _ hwf ho => takeAll_transferEvents hwf ho bl v m t

end Sys2Proof.Machine
end

section
/-! PROOFS. How a request answers (R66, R67, R136): its events, one response, and the data and the number of events
that an OK means. -/

namespace Sys2Proof.Machine

/-! ### The data of a run -/

theorem runOp_done_data {op : MicroOp} {d d' : Option Byte} {s t : State} (h : runOp op d s = .done d' t) :
    d'.isSome = true ↔ d.isSome = true ∨ op = .read := by
  cases op with
  | write f =>
    cases hok : s.bus.answer.ok with
    | true => rw [runOp, portWrite_ok hok] at h; cases h; simp
    | false => rw [runOp, portWrite_busError hok] at h; cases h
  | read =>
    cases hok : s.bus.answer.ok with
    | true => rw [runOp, portRead_ok hok] at h; cases h; simp
    | false => rw [runOp, portRead_busError hok] at h; cases h
  | wait t => cases h; simp

/-- R40: a run that completes has data exactly when it started with some, or read. -/
theorem runOps_done_data {ops : List MicroOp} {d d' : Option Byte} {s t : State} (h : runOps ops d s = .done d' t) :
    d'.isSome = true ↔ d.isSome = true ∨ .read ∈ ops := by
  induction ops generalizing d s with
  | nil => cases h; simp
  | cons op ops ih =>
    rw [runOps] at h
    split at h
    · next d1 s1 hop =>
      rw [ih h, runOp_done_data hop, List.mem_cons, or_assoc, eq_comm (a := op)]
    · cases h

/-- R104: PREAD is the request that reads. -/
theorem read_mem_requestOps {i : Instr} {s : State} : .read ∈ requestOps i s ↔ i = .pread := by
  cases i <;> simp [requestOps, sendOps, initOps, bootstrapOps, setupOps, bootOps]

/-! ### The answer -/

/-- R66, R136: `t` is `s` after a request `i` has ended: events and one response were added, data came with an OK of
GETBL or PREAD alone, and with an OK the micro-operations of the request all completed. -/
def Answers (i : Instr) (s t : State) : Prop :=
  ∃ evs code data, t.trace = s.trace ++ evs.map .event ++ [.response code data] ∧
    t.eng.seq = 0 ∧ t.eng.busy = false ∧
    (data.isSome = true ↔ code = .ok ∧ (i = .getbl ∨ i = .pread)) ∧
    (code = .ok → RunCompletes s.cfg (requestOps i s) evs)

/-- R132, R133: an error without an event. -/
theorem respond_error_answers (i : Instr) {code : Code} (hcode : code ≠ .ok) (s : State) :
    Answers i s (respond code none s) :=
  ⟨[], code, none, by simp, rfl, rfl, by simp [hcode], fun h => absurd h hcode⟩

theorem initBody_answers (s : State) : Answers .init s (initBody s) := by
  obtain ⟨evs, d, hevs, h⟩ | ⟨evs, n, hevs, h⟩ := runOps_cases (initOps s.cfg s.eng.bl) none (initBegin s)
  · rw [initBody, h]
    exact ⟨evs, .ok, none, rfl, rfl, rfl, by simp, fun _ => hevs⟩
  · rw [initBody, h]
    exact ⟨evs, .busError, none, rfl, rfl, rfl, by simp, nofun⟩

/-- R134, R136: a request that runs its micro-operations has data when one of them reads. -/
theorem perform_answers {i : Instr} (hi : i ≠ .getbl) (s : State) :
    Answers i s (perform (requestOps i s) { s with eng := committed i s.eng }) := by
  obtain ⟨evs, d, hevs, h⟩ | ⟨evs, n, hevs, h⟩ :=
    runOps_cases (requestOps i s) none { s with eng := committed i s.eng }
  · have hdata : d.isSome = true ↔ i = .pread := by simpa [read_mem_requestOps] using runOps_done_data h
    rw [perform, h]
    exact ⟨evs, .ok, d, rfl, rfl, rfl, by simp [hdata, hi], fun _ => hevs⟩
  · rw [perform, h]
    exact ⟨evs, .busError, none, rfl, rfl, rfl, by simp, nofun⟩

theorem gated_answers {i : Instr} {body : State → State} {s : State} (h : Answers i s (body s)) :
    Answers i s (gated body s) := by
  unfold gated
  split
  · exact h
  · exact respond_error_answers i (by decide) s

theorem setcurBody_answers (line col : Nat) (s : State) : Answers (.setcur line col) s (setcurBody line col s) := by
  unfold setcurBody
  split
  · exact respond_error_answers _ (by decide) s
  · exact perform_answers (i := .setcur line col) nofun s

theorem requestBody_answers {i : Instr} (h : i.isRequest = true) (s : State) : Answers i s (requestBody i s) := by
  -- But for INIT, GETBL and the bounds of SETCUR, a body is by definition the run of `requestOps`.
  have run (hi : i ≠ .getbl) := perform_answers hi s
  cases i with
  | init => exact initBody_answers s
  | setcur line col => exact gated_answers (setcurBody_answers line col s)
  | getbl => exact ⟨[], .ok, some (b2u s.eng.bl), by simp [requestBody], rfl, rfl, by simp, fun _ => .nil⟩
  | pread => exact run nofun
  | clear | home | putc | display | cursor | blink | entry | shift | backlight => exact gated_answers (run nofun)
  | _ => cases h

/-- R17: that the port is taken while a request runs is not seen in how it answers. -/
theorem Answers.of_begun {i : Instr} {s t : State}
    (h : Answers i { s with eng := { s.eng with busy := true, seq := 0 } } t) : Answers i s t := by
  cases i <;> exact h

/-- Settles O27: the port accepts the request, and its body answers. -/
theorem oneResponseEndsEachRequest : Obligations.OneResponseEndsEachRequest := by
  intro s i hacc hi
  obtain ⟨evs, code, data, htrace, hseq, hbusy, hdata, -⟩ := (requestBody_answers hi _).of_begun (s := s)
  exact ⟨_, evs, code, data, (exec_of_isRequest hi s).trans (accept_of_accepts hacc _), htrace, hseq, hbusy, hdata⟩

/-! ### The events of an OK -/

/-- R136: where the trace ends in an OK, the events before it are those of the request's micro-operations. -/
theorem exec_ok_completes {i : Instr} {s t : State} {evs : List Event} {data : Option Byte} (hi : i.isRequest = true)
    (h : exec i s = .next t) (htrace : t.trace = s.trace ++ evs.map .event ++ [.response .ok data]) :
    RunCompletes s.cfg (requestOps i s) evs := by
  rw [exec_of_isRequest hi] at h
  obtain ⟨-, rfl⟩ := accept_next h
  obtain ⟨evs', code, data', htrace', -, -, -, hrun⟩ := (requestBody_answers hi _).of_begun (s := s)
  rw [htrace', List.append_assoc, List.append_assoc] at htrace
  obtain ⟨hevs, hresp⟩ := List.append_inj' (List.append_cancel_left htrace) rfl
  obtain rfl : evs' = evs := List.map_injective_iff.mpr (fun _ _ h => Emission.event.inj h) hevs
  cases hresp
  exact hrun rfl

/-- R67: events that complete are counted as their micro-operations are. -/
theorem RunCompletes.countP_eq {c : Config} {ops : List MicroOp} {evs : List Event} (h : RunCompletes c ops evs)
    {p : MicroOp → Bool} {q : Event → Bool} (hpq : ∀ op ev, OpCompletes c op ev → q ev = p op) :
    evs.countP q = ops.countP p := by
  induction h with
  | nil => rfl
  | cons hev _ ih => rw [List.countP_cons, List.countP_cons, ih, hpq _ _ hev]

/-- R39: the operation is a PortWrite. -/
def MicroOp.isWrite : MicroOp → Bool
  | .write _ => true
  | _ => false

/-- R81: the operation is a Wait. -/
def MicroOp.isWait : MicroOp → Bool
  | .wait _ => true
  | _ => false

/-- R67: the writes, the reads and the waits of a list of micro-operations. -/
def tally (ops : List MicroOp) : Nat × Nat × Nat :=
  (ops.countP MicroOp.isWrite, ops.countP (· = .read), ops.countP MicroOp.isWait)

theorem tally_sendOps (c : Config) (bl : Bool) (v : Byte) (m : Mode) (t : Nat) :
    tally (sendOps c bl v m t) = (4, 0, 1) := rfl

theorem tally_initOps (c : Config) (bl : Bool) : tally (initOps c bl) = (28, 0, 10) := rfl

/-- Settles O28: the events of an OK are those of the request's micro-operations, which are counted in R67's table. -/
theorem requestLengths : Obligations.RequestLengths := by
  intro s t i data evs hi hnext htrace writes reads waits
  have hrun := exec_ok_completes hi hnext htrace
  have htally : (writes, reads, waits) = tally (requestOps i s) := by
    refine Prod.ext (hrun.countP_eq ?_) (Prod.ext (hrun.countP_eq ?_) (hrun.countP_eq ?_))
    all_goals rintro _ _ (_ | _ | _) <;> rfl
  rw [htally]
  cases i with
  | init => exact tally_initOps _ _
  | clear | home | setcur | putc | display | cursor | blink | entry | shift => exact tally_sendOps _ _ _ _ _
  | backlight | getbl | pread => rfl
  | _ => cases hi

end Sys2Proof.Machine
end

section
/-! PROOFS. The facade's texts (R72; log entry 17): the pieces of a text that wraps. -/

namespace Sys2Proof.Machine

/-- R72: the byte that a request writes at the cursor. -/
def putcByte : Instr → Option Byte
  | .putc b => some b
  | _ => none

theorem putText_putcByte (text : List Byte) : (putText text).filterMap putcByte = text := by
  rw [putText, List.filterMap_map]
  exact List.filterMap_some

theorem setcurAt_putcByte (place : Option (Nat × Nat)) : (setcurAt place).filterMap putcByte = [] := by
  cases place <;> rfl

section Wrapping

variable {columns line : Nat} {text : List Byte}

theorem wrapPieces_nil (fuel k : Nat) : wrapPieces columns line text fuel k [] = [] := by
  cases fuel <;> rfl

/-- Log entry 17: the pieces write the whole text, in order. -/
theorem wrapPieces_putcByte (hcol : 1 ≤ columns) {fuel : Nat} (k : Nat) {rest : List Byte}
    (hfuel : rest.length ≤ fuel) : (wrapPieces columns line text fuel k rest).filterMap putcByte = rest := by
  induction fuel generalizing k rest with
  | zero => rw [List.length_eq_zero_iff.mp (Nat.le_zero.mp hfuel)]; rfl
  | succ fuel ih =>
    rw [wrapPieces]
    split
    · next hnil => rw [List.isEmpty_iff.mp hnil]; rfl
    · have hdrop : (rest.drop columns).length ≤ fuel := by rw [List.length_drop]; omega
      rw [List.filterMap_append, List.filterMap_append, setcurAt_putcByte, putText_putcByte, ih _ hdrop,
        List.nil_append, List.take_append_drop]

/-- R72: the facade's requests for a text. -/
def WritesText (i : Instr) : Prop := (∃ b, i = .putc b) ∨ ∃ l c, i = .setcur l c

theorem WritesText.isRequest {i : Instr} (h : WritesText i) : i.isRequest = true := by
  obtain ⟨b, rfl⟩ | ⟨l, c, rfl⟩ := h <;> rfl

theorem putText_writesText (piece : List Byte) : ∀ i ∈ putText piece, WritesText i := by
  intro i hi
  obtain ⟨b, -, rfl⟩ := List.mem_map.mp hi
  exact .inl ⟨b, rfl⟩

theorem setcurAt_writesText (place : Option (Nat × Nat)) : ∀ i ∈ setcurAt place, WritesText i := by
  intro i hi
  cases place with
  | none => cases hi
  | some p => exact .inr ⟨p.1, p.2, List.mem_singleton.mp hi⟩

theorem wrapPieces_writesText (fuel k : Nat) (rest : List Byte) :
    ∀ i ∈ wrapPieces columns line text fuel k rest, WritesText i := by
  induction fuel generalizing k rest with
  | zero => nofun
  | succ fuel ih =>
    rw [wrapPieces]
    split
    · nofun
    · intro i hi
      obtain hi | hi := List.mem_append.mp hi
      · exact (List.mem_append.mp hi).elim (setcurAt_writesText _ i) (putText_writesText _ i)
      · exact ih _ _ i hi

theorem afterFirstLine_of_fits {policy : WriteLinePolicy} (h : text.length ≤ columns) :
    afterFirstLine policy columns line text = [] := by
  cases policy with
  | truncate => rfl
  | wrap => rw [afterFirstLine, List.drop_eq_nil_of_le h, wrapPieces_nil]

theorem afterFirstLine_writesText (policy : WriteLinePolicy) :
    ∀ i ∈ afterFirstLine policy columns line text, WritesText i := by
  cases policy with
  | truncate => nofun
  | wrap => exact wrapPieces_writesText _ _ _

theorem lineRequests_writesText (policy : WriteLinePolicy) :
    ∀ i ∈ lineRequests policy columns text line, WritesText i :=
  List.forall_mem_cons.mpr ⟨.inr ⟨line, 0, rfl⟩, fun i hi =>
    (List.mem_append.mp hi).elim (putText_writesText _ i) (afterFirstLine_writesText policy i)⟩

end Wrapping

theorem expand_writeLine (c : Config) (text : List Byte) (l : Nat) :
    FacadeCall.expand c (.writeLine text l) =
      .setcur l 0 :: (putText (text.take c.columns) ++ afterFirstLine c.writeLinePolicy c.columns l text) := rfl

theorem expand_isRequest (c : Config) (call : FacadeCall) : ∀ i ∈ FacadeCall.expand c call, i.isRequest = true := by
  cases call with
  | writeLine text l => exact fun i hi => (lineRequests_writesText c.writeLinePolicy i hi).isRequest
  | _ => exact fun i hi => by rw [List.mem_singleton.mp hi]; rfl

/-- Settles O57: a write_line is its first line and what follows it, by length and policy. -/
theorem facadeExpansions : Obligations.FacadeExpansions := by
  refine fun c => ⟨rfl, rfl, rfl, rfl, rfl, rfl, rfl, fun text l hfits => ?_, fun text l _ hpolicy => ?_,
    fun text l _ hpolicy hcol => ?_, expand_isRequest c⟩
  · rw [expand_writeLine, afterFirstLine_of_fits hfits, List.take_of_length_le hfits, List.append_nil]
    rfl
  · rw [expand_writeLine, hpolicy, afterFirstLine, List.append_nil]
    rfl
  · refine ⟨afterFirstLine .wrap c.columns l text, ?_, ?_, afterFirstLine_writesText .wrap⟩
    · rw [expand_writeLine, hpolicy]
      rfl
    · exact wrapPieces_putcByte hcol 1 (by rw [List.length_drop]; omega)

end Sys2Proof.Machine
end

section
/-! PROOFS. The nibble encoder (R76, R77), and a request that passes its checks, by the transport's answers (R78,
R80, R82, R83, R134, R135). -/

namespace Sys2Proof.Machine

/-! ### The encoder -/

theorem encodeFrames_eq (c : Config) (v : Byte) (m : Mode) (blv : Bool) :
    encodeFrames c v m blv =
      [frame c (hiNibble v) (rsOf m) blv true, frame c (hiNibble v) (rsOf m) blv false,
        frame c (loNibble v) (rsOf m) blv true, frame c (loNibble v) (rsOf m) blv false] := rfl

/-- Settles O9: each of the four frames is one of the builder's, whose lines are known. -/
theorem encoderLaws : Obligations.EncoderLaws := by
  intro c v m blv hwf
  refine ⟨_, _, _, _, encodeFrames_eq c v m blv, dataNibble_frame hwf _ _ _ _, dataNibble_frame hwf _ _ _ _,
    dataNibble_frame hwf _ _ _ _, dataNibble_frame hwf _ _ _ _, ?_, line_frame_e hwf _ _ _ _,
    line_frame_e hwf _ _ _ _, line_frame_e hwf _ _ _ _, line_frame_e hwf _ _ _ _⟩
  have hlines (n : Nibble) (e : Bool) :
      line (frame c n (rsOf m) blv e) c.pinmap.bl = blBit c blv ∧
        line (frame c n (rsOf m) blv e) c.pinmap.rs = rsOf m ∧
        line (frame c n (rsOf m) blv e) c.pinmap.rw = false :=
    ⟨line_frame_bl hwf n _ blv e, line_frame_rs hwf n _ blv e, line_frame_rw hwf n _ blv e⟩
  simp only [List.forall_mem_cons, hlines, List.not_mem_nil, false_imp_iff, implies_true, and_self]

/-! ### A request that passes its checks -/

/-- R103, R132, R133: a response without an event. -/
theorem respond_eq_settled (code : Code) (data : Option Byte) (s : State) :
    respond code data s = s.settled s.eng [] code data := by
  simp [State.settled, respond, shadowAfter, Observer.takeAll, transactions, Transport.skip]

/-- R78, R136: a request's writes and waits, whose writes all succeed. -/
theorem perform_ok {ops : List MicroOp} (hr : .read ∉ ops) {s : State}
    (hok : s.BusOk (transactions (ops.map (opEvent s.cfg)))) :
    perform ops s = s.settled s.eng (ops.map (opEvent s.cfg)) .ok none := by
  rw [perform, runOps_ok ops hr none s hok]
  rfl

/-- R134, R135: a request's writes and waits, whose `k`-th write is the first to fail. -/
theorem perform_busError {ops : List MicroOp} (hr : .read ∉ ops) {s : State} {k : Nat}
    (hk : k < transactions (ops.map (opEvent s.cfg))) (hf : s.BusFailsAt k) :
    perform ops s =
      s.settled { s.eng with syncLost := true } (failAt k (ops.map (opEvent s.cfg))) .busError none := by
  obtain ⟨n, -, hrun⟩ := runOps_busError ops hr none s k hk hf
  rw [perform, hrun]
  rfl

/-- R95: the operands of a SETCUR are inside the bounds. -/
def InBounds (c : Config) : Instr → Prop
  | .setcur line col => line < c.lines ∧ col < c.columns
  | _ => True

theorem gated_of_ready {s : State} (h : s.eng.fsm = .ready) (body : State → State) : gated body s = body s :=
  if_pos h

theorem setcurBody_of_inBounds {line col : Nat} {s : State} (h : line < s.cfg.lines ∧ col < s.cfg.columns) :
    setcurBody line col s =
      transfer (ddAddrByte (ddAddr s.cfg line col)) .instruction s.cfg.tCmd s :=
  if_neg (by omega)

/-- R64, R82, R92, R95: a gated request that passes its checks commits its mirrors and runs its micro-operations. -/
theorem exec_of_isGated {i : Instr} (hi : i.isGated = true) {s : State} (hacc : s.Accepts)
    (hready : s.eng.fsm = .ready) (hbounds : InBounds s.cfg i) :
    exec i s = .next (perform (requestOps i s)
      { s with eng := { committed i s.eng with busy := true, seq := 0 } }) := by
  have run (body : State → State) : accept (gated body) s =
      .next (body { s with eng := { s.eng with busy := true, seq := 0 } }) := by
    rw [accept_of_accepts hacc, gated_of_ready (by exact hready)]
  cases i with
  | setcur line col => exact (run _).trans (congrArg _ (setcurBody_of_inBounds hbounds))
  | clear | home | putc | display | cursor | blink | entry | shift | backlight => exact run _
  | _ => cases hi

section Passing

variable {i : Instr} {s : State} (hi : i.isGated = true) (hacc : s.Accepts) (hready : s.eng.fsm = .ready)
  (hbounds : InBounds s.cfg i)

include hi in
theorem read_notMem_of_isGated : .read ∉ requestOps i s := by
  rw [read_mem_requestOps]
  rintro rfl
  cases hi

include hi hacc hready hbounds

/-- R78, R82, R136: a gated request whose writes all succeed. -/
theorem exec_gated_ok (hok : s.BusOk (transactions ((requestOps i s).map (opEvent s.cfg)))) :
    exec i s = .next (s.settled (committed i s.eng) ((requestOps i s).map (opEvent s.cfg)) .ok none) := by
  rw [exec_of_isGated hi hacc hready hbounds, perform_ok (read_notMem_of_isGated hi) (by exact hok)]
  simp only [State.settled, committed_shadow]

/-- R82, R134, R135: a gated request whose `k`-th write is the first to fail. -/
theorem exec_gated_busError {k : Nat} (hk : k < transactions ((requestOps i s).map (opEvent s.cfg)))
    (hf : s.BusFailsAt k) :
    exec i s = .next (s.settled { committed i s.eng with syncLost := true }
      (failAt k ((requestOps i s).map (opEvent s.cfg))) .busError none) := by
  rw [exec_of_isGated hi hacc hready hbounds,
    perform_busError (read_notMem_of_isGated hi) (by exact hk) (by exact hf)]
  simp only [State.settled, committed_shadow]

end Passing

/-- Settles O20: GETBL is a response without an event. -/
theorem getblResult : Obligations.GetblResult := by
  intro s hacc
  rw [exec_of_isRequest rfl, accept_of_accepts hacc]
  exact congrArg Host.Outcome.next (respond_eq_settled .ok (some (b2u s.eng.bl)) _)

/-- Settles O19: the one frame is `shadow` but for its BL line, and its write completes or is the BusError. -/
theorem backlightResult : Obligations.BacklightResult := by
  intro s on hacc hready
  refine ⟨backlightFrame s.cfg s.eng.shadow on, ?_, fun i hne => line_backlightFrame_of_ne hne _ on,
    fun hok => ?_, fun hf => ?_⟩
  · rw [line_backlightFrame_bl, blBit_eq_ite]
  · exact exec_gated_ok (i := .backlight on) rfl hacc hready trivial hok
  · exact exec_gated_busError (i := .backlight on) rfl hacc hready trivial Nat.zero_lt_one hf

/-! ### The bytes in numbers (R19, R20, R38, R59) -/

theorem ofNat_flagsNat (d c b : Bool) : BitVec.ofNat 3 (flagsNat d c b) = ctrlOf d c b := by
  revert d c b
  decide

theorem ctrlByte_ctrlOf (d c b : Bool) : ctrlByte (ctrlOf d c b) = BitVec.ofNat 8 (0x08 + flagsNat d c b) := by
  revert d c b
  decide

theorem entryOf_eq_ofNat (inc sh : Bool) : entryOf inc sh = BitVec.ofNat 2 (2 * inc.toNat + sh.toNat) := by
  revert inc sh
  decide

theorem entryByte_eq_ofNat (inc sh : Bool) :
    entryByte inc sh = BitVec.ofNat 8 (0x04 + (2 * inc.toNat + sh.toNat)) := by
  revert inc sh
  decide

theorem shiftByte_eq_ofNat (sc rl : Bool) :
    shiftByte sc rl = BitVec.ofNat 8 (0x10 + 8 * sc.toNat + 4 * rl.toNat) := by
  revert sc rl
  decide

theorem ddAddrByte_eq_ofNat (a : DdAddr) : ddAddrByte a = BitVec.ofNat 8 (0x80 + a.toNat) := by
  revert a
  decide

/-- R37: every address that exists has 7 bits. -/
theorem lt_of_validDdram {twoLine : Bool} {a : Nat} (h : validDdram twoLine a = true) : a < 128 := by
  cases twoLine <;> simp [validDdram] at h <;> omega

/-- R8 cfg_line_start: every cell inside the bounds is at an address that exists. -/
theorem validDdram_cell {c : Config} (hwf : c.wf = true) {line col : Nat} (hline : line < c.lines)
    (hcol : col < c.columns) : validDdram (fsN c) ((c.lineStart.getD line 0#7).toNat + col) = true := by
  obtain ⟨-, -, -, hstarts, -⟩ := (Config.wf_iff c).mp hwf
  have hpos : 1 ≤ c.lines := by omega
  obtain ⟨hlen, hcells⟩ := (Config.cfgLineStart_iff hpos).mp hstarts
  have hlt : line < c.lineStart.length := by omega
  rw [List.getD_eq_getElem _ _ hlt, validDdram_fsN_iff hpos]
  exact hcells _ (List.getElem_mem hlt) col hcol

/-- R38, R95: inside the bounds the sum of a line's start and a column does not wrap. -/
theorem ddAddr_toNat {c : Config} (hwf : c.wf = true) {line col : Nat} (hline : line < c.lines)
    (hcol : col < c.columns) : (ddAddr c line col).toNat = (c.lineStart.getD line 0#7).toNat + col := by
  have hlt := lt_of_validDdram (validDdram_cell hwf hline hcol)
  rw [ddAddr, BitVec.toNat_add, BitVec.toNat_ofNat, Nat.add_mod_mod, Nat.mod_eq_of_lt hlt]

/-! ### A byte request whose write fails -/

/-- R82, R151: `byteTransfer`, in the model's own terms. -/
theorem byteTransfer_cases {s : State} {i : Instr} {eng : Engine} {v : Byte} {m : Mode} {t : Nat}
    (hwf : s.cfg.wf = true) (h : byteTransfer s i = some (eng, v, m, t)) :
    i.isGated = true ∧ InBounds s.cfg i ∧ committed i s.eng = eng ∧
      requestOps i s = sendOps s.cfg s.eng.bl v m t := by
  cases i with
  | clear | home | putc => cases h; exact ⟨rfl, trivial, rfl, rfl⟩
  | setcur line col =>
    obtain ⟨hbounds, h⟩ := Option.ite_none_right_eq_some.mp h
    cases h
    exact ⟨rfl, hbounds, rfl, by
      rw [requestOps, ddAddrByte_eq_ofNat, ddAddr_toNat hwf hbounds.1 hbounds.2, Nat.add_assoc]⟩
  | display | cursor | blink =>
    cases h
    exact ⟨rfl, trivial, by rw [ofNat_flagsNat]; rfl, by rw [← ctrlByte_ctrlOf]; rfl⟩
  | entry inc sh =>
    cases h
    exact ⟨rfl, trivial, by rw [← entryOf_eq_ofNat]; rfl, by rw [← entryByte_eq_ofNat]; rfl⟩
  | shift sc rl => cases h; exact ⟨rfl, trivial, rfl, by rw [← shiftByte_eq_ofNat]; rfl⟩
  | _ => cases h

/-- R78: a byte transfer is the four writes of its frames and a wait. -/
theorem sendOps_map_opEvent (c : Config) (bl : Bool) (v : Byte) (m : Mode) (t : Nat) :
    (sendOps c bl v m t).map (opEvent c) = transferEvents c bl v m t := rfl

theorem transactions_transferEvents (c : Config) (bl : Bool) (v : Byte) (m : Mode) (t : Nat) :
    transactions (transferEvents c bl v m t) = 4 := rfl

/-- Settles O24: each byte request passes its checks, and its four writes are those of its byte. -/
theorem transferBusErrorResult : Obligations.TransferBusErrorResult := by
  intro s i eng v m t k hacc hready hbyte hk hf
  obtain ⟨hgated, hbounds, rfl, hops⟩ := byteTransfer_cases hacc.1 hbyte
  have hevents : (requestOps i s).map (opEvent s.cfg) = transferEvents s.cfg s.eng.bl v m t := by
    rw [hops, sendOps_map_opEvent]
  rw [← hevents]
  refine exec_gated_busError hgated hacc hready hbounds ?_ hf
  rw [hevents, transactions_transferEvents]
  exact hk

end Sys2Proof.Machine
end

section
/-! PROOFS. INIT from its acceptance to its response (R33, R85, R87 to R89): its 38 events, its two ends, and the
recovery by a second INIT (R91, R129, R138). -/

namespace Sys2Proof.Machine

/-! ### INIT's events -/

/-- R21, R59: the function-set byte as R87's list writes it, without DL, which is 0. -/
theorem funcsetByte_eq (c : Config) :
    funcsetByte c = 0x20#8 ||| (b2u (1 < c.lines) <<< 3) ||| (b2u (c.font = .f5x10) <<< 2) := rfl

/-- R87, R88: INIT's micro-operations emit R87's events. -/
theorem initOps_map_opEvent (c : Config) (bl : Bool) : (initOps c bl).map (opEvent c) = initEvents c bl := by
  rw [initEvents, ← funcsetByte_eq]
  rfl

theorem length_initEvents (c : Config) (bl : Bool) : (initEvents c bl).length = 38 := rfl

theorem transactions_initEvents (c : Config) (bl : Bool) : transactions (initEvents c bl) = 28 := rfl

theorem read_notMem_initOps (c : Config) (bl : Bool) : .read ∉ initOps c bl := by
  simp [initOps, bootstrapOps, setupOps, bootOps, sendOps]

/-- R16: without a read, the events of the operations are those of a run that completes. -/
theorem runCompletes_map_opEvent (c : Config) {ops : List MicroOp} (hr : .read ∉ ops) :
    RunCompletes c ops (ops.map (opEvent c)) := by
  induction ops with
  | nil => exact .nil
  | cons op ops ih =>
    obtain ⟨hop, hops⟩ := not_or.mp (List.mem_cons.not.mp hr)
    refine .cons ?_ (ih hops)
    cases op with
    | write f => exact .write f
    | read => exact absurd rfl hop
    | wait t => exact .wait t

theorem runCompletes_initEvents (c : Config) (bl : Bool) : RunCompletes c (initOps c bl) (initEvents c bl) := by
  rw [← initOps_map_opEvent]
  exact runCompletes_map_opEvent c (read_notMem_initOps c bl)

/-! ### INIT by the transport's answers -/

/-- R87: INIT ended by its last micro-operation settles READY, with an OK. -/
theorem initEnd_advanced (s : State) (evs : List Event) (n : Nat) :
    initEnd ((initBegin s).advanced evs n) = s.settled (completedEngine .init s.eng) evs .ok none := rfl

/-- R89: the state after an INIT that a BusError has ended: it settles as any request, and leaves the controller
indeterminate. -/
def State.initFailed (s : State) (evs : List Event) : State :=
  { s.settled (failedEngine .init s.eng) evs .busError none with
    obs := (s.obs.takeAll s.cfg evs).indeterminate }

theorem raiseInitBusError_advanced (s : State) (evs : List Event) (n : Nat) :
    raiseInitBusError ((initBegin s).advanced evs n) = s.initFailed evs := rfl

/-- R89, I23: of the observer, the latch, the fault and the refusal are as the events leave them. -/
theorem initFailed_eq (s : State) (evs : List Event) :
    let t := s.settled (failedEngine .init s.eng) evs .busError none
    ∃ o : Observer, o.latch = t.obs.latch ∧ o.fault = t.obs.fault ∧ o.refused = t.obs.refused ∧
      s.initFailed evs = { t with obs := o } :=
  ⟨_, indeterminate_latch _, indeterminate_fault _, indeterminate_refused _, rfl⟩

/-- R87, R88: INIT's body, where its 28 writes succeed. -/
theorem initBody_ok {s : State} (hok : s.BusOk 28) :
    initBody s = s.settled (completedEngine .init s.eng) (initEvents s.cfg s.eng.bl) .ok none := by
  have hrun := runOps_ok _ (read_notMem_initOps s.cfg s.eng.bl) none (initBegin s)
  rw [initBegin_cfg, initOps_map_opEvent, transactions_initEvents] at hrun
  rw [initBody, hrun hok]
  exact initEnd_advanced s _ _

/-- R89, R135: INIT's body, where its `k`-th write is the first to fail. -/
theorem initBody_busError {s : State} {k : Nat} (hk : k < 28) (hf : s.BusFailsAt k) :
    initBody s = s.initFailed (failAt k (initEvents s.cfg s.eng.bl)) := by
  have hrun := runOps_busError _ (read_notMem_initOps s.cfg s.eng.bl) none (initBegin s) k
  rw [initBegin_cfg, initOps_map_opEvent, transactions_initEvents] at hrun
  obtain ⟨n, -, hrun⟩ := hrun hk hf
  rw [initBody, hrun]
  exact raiseInitBusError_advanced s _ n

/-- R17, R136: how INIT ends does not show that the port was taken while it ran. -/
theorem initSettled_begun (s : State) (evs : List Event) :
    let t : State := { s with eng := { s.eng with busy := true, seq := 0 } }
    t.settled (completedEngine .init t.eng) evs .ok none = s.settled (completedEngine .init s.eng) evs .ok none ∧
      t.initFailed evs = s.initFailed evs := ⟨rfl, rfl⟩

theorem exec_init_of_accepts {s : State} (hacc : s.Accepts) :
    exec .init s = .next (initBody { s with eng := { s.eng with busy := true, seq := 0 } }) :=
  accept_of_accepts hacc initBody

theorem exec_init_ok {s : State} (hacc : s.Accepts) (hok : s.BusOk 28) :
    exec .init s = .next (s.settled (completedEngine .init s.eng) (initEvents s.cfg s.eng.bl) .ok none) := by
  rw [exec_init_of_accepts hacc, initBody_ok (by exact hok)]
  exact congrArg Host.Outcome.next (initSettled_begun s _).1

theorem exec_init_busError {s : State} (hacc : s.Accepts) {k : Nat} (hk : k < 28) (hf : s.BusFailsAt k) :
    exec .init s = .next (s.initFailed (failAt k (initEvents s.cfg s.eng.bl))) := by
  rw [exec_init_of_accepts hacc, initBody_busError hk (by exact hf)]
  exact congrArg Host.Outcome.next (initSettled_begun s _).2

/-- Settles O22: R87's list has 38 events and ends with the last frame of the display-on byte. -/
theorem initResult : Obligations.InitResult := by
  refine fun s hacc hok => ⟨length_initEvents _ _, ?_, exec_init_ok hacc hok⟩
  rw [(runCompletes_initEvents _ _).shadowAfter_eq, lastFrame_initOps]
  rfl

/-- Settles O23: of the indeterminate controller, the latch, the fault and the refusal are not drawn. -/
theorem initBusErrorResult : Obligations.InitBusErrorResult := by
  intro s k hacc hk hf
  rw [exec_init_busError hacc hk hf]
  obtain ⟨o, hlatch, hfault, hrefused, ho⟩ := initFailed_eq s (failAt k (initEvents s.cfg s.eng.bl))
  exact ⟨o, hlatch, hfault, hrefused, congrArg Host.Outcome.next ho⟩

/-! ### INIT's two ends -/

/-- R85, R89: INIT ends READY with an OK, or UNINIT with a BUS_ERROR. -/
theorem initBody_fsm (s : State) :
    ((initBody s).eng.fsm = .ready ∧ (initBody s).eng.syncLost = false ∧
        ∃ evs, (initBody s).trace = s.trace ++ evs ++ [.response .ok none]) ∨
      ((initBody s).eng.fsm = .uninit ∧ (initBody s).eng.syncLost = true ∧
        ∃ evs, (initBody s).trace = s.trace ++ evs ++ [.response .busError none]) := by
  obtain ⟨evs, d, -, h⟩ | ⟨evs, n, -, h⟩ := runOps_cases (initOps s.cfg s.eng.bl) none (initBegin s)
  · rw [initBody, h]
    exact .inl ⟨rfl, rfl, evs.map .event, rfl⟩
  · rw [initBody, h]
    exact .inr ⟨rfl, rfl, evs.map .event, rfl⟩

/-- R85: no instruction but INIT moves `fsm`. -/
theorem exec_fsm_of_ne {i : Instr} {s t : State} (hi : i ≠ .init) (h : exec i s = .next t) :
    t.eng.fsm = s.eng.fsm := by
  obtain ⟨-, hfsm, -⟩ := registersWrittenOnlyAsTabled s t i h
  exact hfsm hi

/-- Settles O29, from the access table and from INIT's two ends. -/
theorem fsmMovesOnlyByInit : Obligations.FsmMovesOnlyByInit := by
  refine fun s t i hnext => ⟨fun hi => exec_fsm_of_ne hi hnext, ?_⟩
  rintro rfl
  obtain ⟨-, rfl⟩ := accept_next hnext
  exact initBody_fsm _

/-! ### Recovery -/

/-- R8, R17, R136: a request that has ended leaves the port ready for the next one. -/
theorem RequestEnds.accepts {i : Instr} {s t : State} (h : RequestEnds i s t) (hacc : s.Accepts) : t.Accepts := by
  cases h <;> exact ⟨hacc.1, rfl⟩

/-- R129, R130: under R129's premises an INIT whose writes succeed leaves the engine in step with its display. -/
theorem exec_init_inStep {s : State} (hacc : s.Accepts) (hok : s.BusOk 28) (hrun : s.obs.running = true)
    (hbusy : s.obs.busy ≤ s.cfg.tPowerOn) : ∃ u, exec .init s = .next u ∧ u.InStep := by
  obtain ⟨evs, hevs, hexec⟩ : ∃ evs, RunCompletes s.cfg (initOps s.cfg s.eng.bl) evs ∧
      exec .init s = .next (s.settled (completedEngine .init s.eng) evs .ok none) :=
    ⟨_, runCompletes_initEvents _ _, exec_init_ok hacc hok⟩
  obtain ⟨haligned, hagrees⟩ := hevs.init_inStep hacc.1 hrun hbusy
  have hlatch : (s.obs.takeAll s.cfg evs).latch = shadowAfter s.eng.shadow evs := by
    rw [hevs.takeAll_latch haligned.1, hevs.shadowAfter_eq, lastFrame_initOps, lastFrame_initOps]
  exact ⟨_, hexec, rfl, rfl, haligned, hlatch, hagrees⟩

/-- Settles O59: the second INIT needs of the first only that it has ended. -/
theorem initRecoversFromAFailedInit : Obligations.InitRecoversFromAFailedInit := by
  intro s t k _ _ _ hnext hrun hbusy hok
  obtain ⟨hacc, hends⟩ := exec_request_ends rfl hnext
  exact exec_init_inStep (hends.accepts hacc) hok hrun hbusy

end Sys2Proof.Machine
end

section
/-! PROOFS. The commands that complete, fail to read, or fail the gate (R92 to R101, R104, R132). -/

namespace Sys2Proof.Machine

/-! ### The requests that send one byte -/

/-- R78, R82, R136: a gated request that sends one byte, whose four writes succeed. -/
theorem exec_send_ok {i : Instr} {s : State} {v : Byte} {m : Mode} {t : Nat} (hi : i.isGated = true)
    (hacc : s.Accepts) (hready : s.eng.fsm = .ready) (hbounds : InBounds s.cfg i)
    (hsend : requestOps i s = sendOps s.cfg s.eng.bl v m t) (hok : s.BusOk 4) :
    exec i s = .next (s.settled (committed i s.eng) (transferEvents s.cfg s.eng.bl v m t) .ok none) := by
  have hevents : (requestOps i s).map (opEvent s.cfg) = transferEvents s.cfg s.eng.bl v m t := by
    rw [hsend, sendOps_map_opEvent]
  have hexec := exec_gated_ok hi hacc hready hbounds
  rw [hevents, transactions_transferEvents] at hexec
  exact hexec hok

/-- Settles O10: CLEAR commits no mirror, and its byte is 0x01. -/
theorem clearResult : Obligations.ClearResult :=
  fun _ hacc hready hok => exec_send_ok (i := .clear) rfl hacc hready trivial rfl hok

/-- Settles O11: HOME commits no mirror, and its byte is 0x02. -/
theorem homeResult : Obligations.HomeResult :=
  fun _ hacc hready hok => exec_send_ok (i := .home) rfl hacc hready trivial rfl hok

/-- R8, R38: every line of a well-formed configuration has its start in the table. -/
theorem lineStart_getElem? {c : Config} (hwf : c.wf = true) {line : Nat} (hline : line < c.lines) :
    c.lineStart[line]? = some (c.lineStart.getD line 0#7) := by
  obtain ⟨-, -, -, hstarts, -⟩ := (Config.wf_iff c).mp hwf
  obtain ⟨hlen, -⟩ := (Config.cfgLineStart_iff (Nat.one_le_of_lt hline)).mp hstarts
  have hlt : line < c.lineStart.length := hlen ▸ hline
  rw [List.getD_eq_getElem _ _ hlt, List.getElem?_eq_getElem hlt]

/-- Settles O12: inside the bounds the cell's address exists, and so the byte is 0x80 plus it without a carry. -/
theorem setcurResult : Obligations.SetcurResult := by
  intro s l c hacc hready hok hline hcol
  have hbyte : ddAddrByte (ddAddr s.cfg l c) =
      BitVec.ofNat 8 (0x80 + (s.cfg.lineStart.getD l 0#7).toNat + c) := by
    rw [ddAddrByte_eq_ofNat, ddAddr_toNat hacc.1 hline hcol, Nat.add_assoc]
  refine ⟨_, lineStart_getElem? hacc.1 hline, validDdram_cell hacc.1 hline hcol, ?_⟩
  rw [← hbyte]
  exact exec_send_ok (i := .setcur l c) rfl hacc hready ⟨hline, hcol⟩ rfl hok

/-- Settles O13: PUTC commits no mirror, and its byte is the operand. -/
theorem putcResult : Obligations.PutcResult :=
  fun _ b hacc hready hok => exec_send_ok (i := .putc b) rfl hacc hready trivial rfl hok

/-- R19: the three bits of a control mirror. -/
theorem getLsbD_ctrlOf (d c b : Bool) :
    (ctrlOf d c b).getLsbD 2 = d ∧ (ctrlOf d c b).getLsbD 1 = c ∧ (ctrlOf d c b).getLsbD 0 = b := by
  revert d c b
  decide

/-- Settles O14: DISPLAY commits `ctrl` with D replaced, and its byte is 0x08 with that mirror. -/
theorem displayResult : Obligations.DisplayResult := by
  intro s on hacc hready hok
  obtain ⟨hd, hc, hb⟩ := getLsbD_ctrlOf on (ctrlC s.eng.ctrl) (ctrlB s.eng.ctrl)
  exact ⟨_, hd, hc, hb, exec_send_ok (i := .display on) rfl hacc hready trivial rfl hok⟩

/-- Settles O15: CURSOR commits `ctrl` with C replaced, and its byte is 0x08 with that mirror. -/
theorem cursorResult : Obligations.CursorResult := by
  intro s on hacc hready hok
  obtain ⟨hd, hc, hb⟩ := getLsbD_ctrlOf (ctrlD s.eng.ctrl) on (ctrlB s.eng.ctrl)
  exact ⟨_, hd, hc, hb, exec_send_ok (i := .cursor on) rfl hacc hready trivial rfl hok⟩

/-- Settles O16: BLINK commits `ctrl` with B replaced, and its byte is 0x08 with that mirror. -/
theorem blinkResult : Obligations.BlinkResult := by
  intro s on hacc hready hok
  obtain ⟨hd, hc, hb⟩ := getLsbD_ctrlOf (ctrlD s.eng.ctrl) (ctrlC s.eng.ctrl) on
  exact ⟨_, hd, hc, hb, exec_send_ok (i := .blink on) rfl hacc hready trivial rfl hok⟩

/-- R20, R59, R100: ENTRY's byte is 0x04 with the entry mirror. -/
theorem entryByte_eq_entryOf (inc sh : Bool) : entryByte inc sh = 0x04#8 ||| (entryOf inc sh).setWidth 8 := by
  revert inc sh
  decide

/-- Settles O17: ENTRY commits its two operands, and its byte is 0x04 with that mirror. -/
theorem entryResult : Obligations.EntryResult := by
  intro s inc sh hacc hready hok
  refine ⟨entryOf inc sh, entryId_entryOf inc sh, entryS_entryOf inc sh, ?_⟩
  rw [← entryByte_eq_entryOf]
  exact exec_send_ok (i := .entry inc sh) rfl hacc hready trivial rfl hok

/-- Settles O18: SHIFT commits no mirror, and its byte is 0x10 with its two operands. -/
theorem shiftResult : Obligations.ShiftResult := by
  intro s sc rl hacc hready hok
  rw [← shiftByte_eq_ofNat]
  exact exec_send_ok (i := .shift sc rl) rfl hacc hready trivial rfl hok

/-! ### PREAD -/

/-- R40, R104: the one read of PREAD, which succeeds. -/
theorem perform_read_ok {s : State} (h : s.bus.answer.ok = true) :
    perform [.read] s =
      s.settled s.eng [.busRead s.cfg.i2cAddr (some s.bus.answer.data)] .ok (some s.bus.answer.data) := by
  rw [perform, runOps, runOp, portRead_ok h]
  rfl

/-- R104, R134: the one read of PREAD, which fails. -/
theorem perform_read_busError {s : State} (h : s.bus.answer.ok = false) :
    perform [.read] s =
      s.settled { s.eng with syncLost := true } [.busRead s.cfg.i2cAddr none] .busError none := by
  rw [perform, runOps, runOp, portRead_busError h]
  rfl

/-- Settles O21: PREAD is its one read behind the port, and a read leaves `shadow`. -/
theorem preadResult : Obligations.PreadResult := by
  intro s hacc
  rw [exec_of_isRequest rfl, accept_of_accepts hacc]
  exact ⟨fun hok => congrArg Host.Outcome.next (perform_read_ok (hok 0 Nat.zero_lt_one)),
    fun hf => congrArg Host.Outcome.next (perform_read_busError hf.2)⟩

/-! ### The gate -/

/-- R64: the gated requests are requests. -/
theorem isRequest_of_isGated {i : Instr} (hi : i.isGated = true) : i.isRequest = true := by
  cases i with
  | clear | home | setcur | putc | display | cursor | blink | entry | shift | backlight => rfl
  | _ => cases hi

/-- R92: a gated request does nothing before its gate. -/
theorem exec_eq_gated {i : Instr} (hi : i.isGated = true) (s : State) :
    ∃ body, exec i s = accept (gated body) s := by
  cases i with
  | clear | home | setcur | putc | display | cursor | blink | entry | shift | backlight => exact ⟨_, rfl⟩
  | _ => cases hi

/-- R132: the gate of an engine that is not READY answers in the body's place. -/
theorem gated_of_not_ready {s : State} (h : s.eng.fsm ≠ .ready) (body : State → State) :
    gated body s = s.settled s.eng [] .notInitialized none := by
  rw [gated, if_neg h, raiseNotInitialized, respond_eq_settled]

/-- Settles O25: whatever the request would do behind the gate is not run. -/
theorem gateFailsFast : Obligations.GateFailsFast := by
  intro s i hacc hi hnot
  obtain ⟨body, hexec⟩ := exec_eq_gated hi s
  rw [hexec, accept_of_accepts hacc, gated_of_not_ready (by exact hnot)]
  rfl

end Sys2Proof.Machine
end

section
/-! PROOFS. Commands in a row (R105, R106): three control requests, and a CLEAR with a PUTC behind it. -/

namespace Sys2Proof.Machine

/-! ### What one command leaves for the next -/

/-- R39: a request uses up one answer for each of its transactions. -/
theorem settled_busOk {s : State} {evs : List Event} {n : Nat} (h : s.BusOk (transactions evs + n)) (eng : Engine)
    (code : Code) (data : Option Byte) : (s.settled eng evs code data).BusOk n := by
  intro k hk
  have hanswer := h (transactions evs + k) (Nat.add_lt_add_left hk _)
  rwa [Transport.answerAt, Transport.skip_add] at hanswer

/-- R8, R17, R64, R92: the next `n` byte requests pass the port and the gate, and their writes succeed. -/
def State.TakesBytes (n : Nat) (s : State) : Prop := s.Accepts ∧ s.eng.fsm = .ready ∧ s.BusOk (4 * n)

/-! ### Control requests (R97 to R99) -/

/-- R82, R97 to R99: the state `s` after a request that has made `m` the control mirror and sent it. -/
def State.ctrlSent (m : BitVec 3) (s : State) : State :=
  s.settled { s.eng with ctrl := m }
    (transferEvents s.cfg s.eng.bl (ctrlByte m) .instruction s.cfg.tCmd) .ok none

/-- R39, R136: a control request leaves the port free and the engine READY, and has used four answers. -/
theorem State.TakesBytes.ctrlSent {n : Nat} {s : State} (h : s.TakesBytes (n + 1)) (m : BitVec 3) :
    (s.ctrlSent m).TakesBytes n := by
  obtain ⟨hacc, hready, hok⟩ := h
  refine ⟨⟨hacc.1, rfl⟩, hready, settled_busOk ?_ _ _ _⟩
  rwa [transactions_transferEvents, Nat.add_comm, ← Nat.mul_succ]

/-- R19: a control mirror is its three flags. -/
theorem ctrlOf_flags (m : BitVec 3) : ctrlOf (ctrlD m) (ctrlC m) (ctrlB m) = m := by
  revert m
  decide

theorem setCtrlC_ctrlOf (d c b on : Bool) : setCtrlC (ctrlOf d c b) on = ctrlOf d on b := by
  revert d c b on
  decide

theorem setCtrlB_ctrlOf (d c b on : Bool) : setCtrlB (ctrlOf d c b) on = ctrlOf d c on := by
  revert d c b on
  decide

section Control

variable {n : Nat} {s : State} {d c b : Bool} (h : s.TakesBytes (n + 1)) (hctrl : s.eng.ctrl = ctrlOf d c b)

include h hctrl

/-- R98: CURSOR resends the mirror it found, with C replaced. -/
theorem exec_cursor_ok (on : Bool) : exec (.cursor on) s = .next (s.ctrlSent (ctrlOf d on b)) := by
  obtain ⟨hacc, hready, hok⟩ := h
  rw [← setCtrlC_ctrlOf d c b on, ← hctrl]
  exact exec_send_ok rfl hacc hready trivial rfl fun k hk => hok k (by omega)

/-- R99: BLINK resends the mirror it found, with B replaced. -/
theorem exec_blink_ok (on : Bool) : exec (.blink on) s = .next (s.ctrlSent (ctrlOf d c on)) := by
  obtain ⟨hacc, hready, hok⟩ := h
  rw [← setCtrlB_ctrlOf d c b on, ← hctrl]
  exact exec_send_ok rfl hacc hready trivial rfl fun k hk => hok k (by omega)

end Control

/-- R12, R78: what a control request adds to the trace, with its byte in numbers. -/
theorem ctrlSent_trace (d c b : Bool) (s : State) :
    (s.ctrlSent (ctrlOf d c b)).trace =
      s.trace ++ ((transferEvents s.cfg s.eng.bl (BitVec.ofNat 8 (0x08 + 4 * d.toNat + (2 * c.toNat + b.toNat)))
        .instruction s.cfg.tCmd).map .event ++ [.response .ok none]) := by
  have hflags : 0x08 + 4 * d.toNat + (2 * c.toNat + b.toNat) = 0x08 + flagsNat d c b := by
    simp only [flagsNat, Nat.add_assoc]
  rw [hflags, ← ctrlByte_ctrlOf, State.ctrlSent, settled_trace, List.append_assoc]

/-- Settles O55: each request replaces one flag of the mirror its predecessor left, and sends all three. -/
theorem controlRoundTrip : Obligations.ControlRoundTrip := by
  intro s hacc hready hok
  have hs : s.TakesBytes 3 := ⟨hacc, hready, hok⟩
  have ht := hs.ctrlSent (ctrlOf (ctrlD s.eng.ctrl) true (ctrlB s.eng.ctrl))
  have hu := ht.ctrlSent (ctrlOf (ctrlD s.eng.ctrl) true true)
  obtain ⟨hd, hc, hb⟩ := getLsbD_ctrlOf (ctrlD s.eng.ctrl) false true
  refine ⟨_, _, _, exec_cursor_ok hs (ctrlOf_flags _).symm true, exec_blink_ok ht rfl true,
    exec_cursor_ok hu rfl false, hd, hc, hb, ?_⟩
  rw [ctrlSent_trace, ctrlSent_trace, ctrlSent_trace]
  rfl

/-! ### CLEAR and then PUTC (R106) -/

/-- R43, R78, R115: a request that sends one byte from an engine in step with its display. The controller executes
the byte's word and settles, and the two are in step again. -/
theorem exec_send_inStep {i w : Instr} {s : State} {v : Byte} {m : Mode} {t u : Nat} (hs : s.Inv) (hstep : s.InStep)
    (hi : i.isGated = true) (hbounds : InBounds s.cfg i) (hsend : requestOps i s = sendOps s.cfg s.eng.bl v m t)
    (hok : s.BusOk 4) (hword : decodeWord (wordOf v (rsOf m)) = w) (htime : execTime w = some u) (hut : u ≤ t) :
    let s' := s.settled (committed i s.eng) (transferEvents s.cfg s.eng.bl v m t) .ok none
    exec i s = .next s' ∧ s'.Inv ∧ s'.InStep ∧ s'.obs = s.obs.afterWord w (sendLastFrame s.cfg s.eng.bl v m) := by
  have ⟨hwf, ⟨hbusy, _⟩, _⟩ := hs
  have ⟨hready, hsync, haligned, _⟩ := hstep
  have hexec := exec_send_ok hi ⟨hwf, hbusy⟩ hready hbounds hsend hok
  exact ⟨hexec, exec_inv hs hexec,
    requestsKeepInStep s _ i hs hstep (isRequest_of_isGated hi) hexec ((committed_syncLost i s.eng).trans hsync),
    takeAll_transferEvents_word hwf haligned hword htime hut s.eng.bl⟩

/-- R117, R125: a byte written behind a clear display is at address 0, every other cell is blank, and the counter
has moved on by one. -/
theorem writeData_after_clearDisplay {o : Observer} (hmem : o.ddram.wf = true) (v : Byte) (f g : Frame) :
    let o' := (o.afterWord .clearDisplay f).afterWord (.writeData v) g
    o'.ddram.read 0 = v ∧ o'.ac = 0x01#7 ∧
      ∀ a, a ≠ 0 → validDdram o.n a = true → o'.ddram.read a = 0x20#8 := by
  intro o'
  have hddram : o'.ddram = (o.ddram.blankWhere (validDdram o.n)).write 0 v := if_pos (validDdram_zero o.n)
  have hac : o'.ac = acStep o.n 0#7 true := rfl
  have hread := Memory.read_write (Memory.blankWhere_wf hmem (validDdram o.n)) 0 v
  refine ⟨by rw [hddram, hread, if_pos rfl], ?_, fun a hne hvalid => ?_⟩
  · rw [hac]
    cases o.n <;> rfl
  · rw [hddram, hread, if_neg hne, Memory.read_blankWhere, if_pos hvalid]
    rfl

/-- Settles O54: CLEAR's transfer ends in its wait, and PUTC's word meets the controller that CLEAR's has left. -/
theorem clearThenWrite : Obligations.ClearThenWrite := by
  intro s hs hstep hok
  have ⟨hwf, _, _, ⟨hmem, _⟩, _⟩ := hs
  have ⟨_, _, _, _, ⟨_, hn, _⟩⟩ := hstep
  obtain ⟨-, -, -, -, hcmd, hclear, -⟩ := times_of_wf hwf
  obtain ⟨hexec, ht, htstep, htobs⟩ := exec_send_inStep (i := .clear) (w := .clearDisplay) hs hstep rfl trivial rfl
    (fun k hk => hok k (by omega)) rfl rfl hclear
  obtain ⟨hexec', -, hustep, huobs⟩ := exec_send_inStep (i := .putc 0x41#8) ht htstep rfl trivial rfl
    (settled_busOk hok _ _ _) (decodeWord_data 0x41#8) rfl hcmd
  rw [htobs] at huobs
  obtain ⟨hread, hac, hblank⟩ := writeData_after_clearDisplay hmem 0x41#8 _ _
  refine ⟨_, _, hexec, hexec', hustep, by rw [huobs, hread], by rw [huobs, hac], fun a hne hvalid => ?_, hclear, ?_⟩
  · rw [huobs]
    exact hblank a hne (hn ▸ hvalid)
  · refine ⟨(writeEvents s.cfg (encodeFrames s.cfg clearByte .instruction s.eng.bl)).map .event, _, ?_,
      List.append_assoc _ _ _⟩
    simp [transferEvents]

end Sys2Proof.Machine
end

section
/-! PROOFS. Words at the controller (R115 to R126; log entry 8): what an idle one makes of each, that each is
`execute` of its byte, and what a busy or a stopped one answers. -/

namespace Sys2Proof.Machine

/-! ### A word at an idle controller -/

/-- R57: the words with RW = 0, which the controller executes. -/
def isWriteWord : Instr → Bool
  | .clearDisplay | .returnHome _ | .entryModeSet _ _ | .displayControl _ _ _ | .cursorDisplayShift _ _ _
  | .functionSet _ _ _ _ | .setCgramAddr _ | .setDdramAddr _ | .writeData _ | .noInstruction00 => true
  | _ => false

/-- R116: the row of a word with RW = 0 is that word at the controller alone. -/
theorem exec_of_isWriteWord {i : Instr} (h : isWriteWord i = true) (s : State) :
    exec i s = .next (atController (Observer.runWord i) s) := by
  cases i with
  | clearDisplay | returnHome | entryModeSet | displayControl | cursorDisplayShift | functionSet | setCgramAddr
  | setDdramAddr | writeData | noInstruction00 => rfl
  | _ => cases h

theorem exec_word_of_idle {i : Instr} (h : isWriteWord i = true) {s : State} (hr : s.obs.running = true)
    (hb : s.obs.busy = 0) : exec i s = .next { s with obs := s.obs.runWord i } := by
  rw [exec_of_isWriteWord h, atController_of_idle hr hb]

theorem isWriteWord_decodeWord (v : Byte) (rs : Bool) : isWriteWord (decodeWord (wordOf v rs)) = true := by
  revert v rs
  decide

/-- Settles O58: the word of a byte and an RS has RW = 0, and `execute` runs it. -/
theorem wordRowsAreExecute : Obligations.WordRowsAreExecute :=
  fun _ v rs hr hb => exec_word_of_idle (isWriteWord_decodeWord v rs) hr hb

/-! ### The words one by one -/

/-- Settles O37: the cells that exist are blanked, and the others read as before. -/
theorem clearDisplayWord : Obligations.ClearDisplayWord :=
  fun s hr hb => ⟨_, exec_word_of_idle rfl hr hb, Memory.read_blankWhere s.obs.ddram _⟩

/-- Settles O38: the three words write the fields R119 to R121 name. -/
theorem homeEntryAndDisplayWords : Obligations.HomeEntryAndDisplayWords :=
  fun _ hr hb => ⟨fun _ => exec_word_of_idle rfl hr hb, fun _ _ => exec_word_of_idle rfl hr hb,
    fun _ _ _ => exec_word_of_idle rfl hr hb⟩

/-- R122: a display shift counts up to the left, and down, modulo LLEN(n), to the right. -/
theorem shiftStep_not (twoLine : Bool) (shift : Nat) (rl : Bool) :
    shiftStep twoLine shift (!rl) = (shift + (if rl then llen twoLine - 1 else 1)) % llen twoLine := by
  cases rl <;> rfl

/-- Settles O39: S/C chooses between the counter and the display. -/
theorem shiftWord : Obligations.ShiftWord := by
  intro s rl x hr hb
  refine ⟨exec_word_of_idle rfl hr hb, (exec_word_of_idle rfl hr hb).trans ?_⟩
  simp only [Observer.runWord, Observer.cursorDisplayShift, if_true, shiftStep_not]
  rfl

/-- Settles O40: the word writes the fields R123 names, and DL chooses the interface mode. -/
theorem functionSetWord : Obligations.FunctionSetWord :=
  fun _ _ _ _ _ hr hb => exec_word_of_idle rfl hr hb

section Addresses

variable {o : Observer}

theorem setDdramAddr_of_valid {a : DdAddr} (h : validDdram o.n a.toNat = true) :
    o.setDdramAddr a = { o with ac := a, space := .dd, busy := shortTime } := if_pos h

/-- R124: an address that does not exist is replaced by a draw. -/
theorem setDdramAddr_of_missing {a : DdAddr} (h : validDdram o.n a.toNat = false) :
    o.setDdramAddr a =
      { o.drawRest with ac := validPick o.n o.drawValue, space := .dd, busy := shortTime } :=
  if_neg (by simp [h])

end Addresses

/-- Settles O41: whatever the draw for a missing address, it stands for an address that exists. -/
theorem setAddressWords : Obligations.SetAddressWords := by
  refine fun s hr hb => ⟨fun a => exec_word_of_idle rfl hr hb, fun a ha => ?_, fun a ha =>
    ⟨_, validDdram_validPick s.obs.n s.obs.drawValue, ?_⟩⟩
  · rw [exec_word_of_idle rfl hr hb, Observer.runWord, setDdramAddr_of_valid ha]
    rfl
  · rw [exec_word_of_idle rfl hr hb, Observer.runWord, setDdramAddr_of_missing ha]
    rfl

/-! ### Data writes (R125) -/

section DataWrites

variable {o : Observer}

theorem writeData_of_dd (h : o.space = .dd) (v : Byte) :
    o.writeData v =
      { o with
        ddram := o.storeDdram v
        shift := if o.s then shiftStep o.n o.shift o.id else o.shift
        ac := acStep o.n o.ac o.id
        busy := shortTime } := by
  simp only [Observer.writeData, h]

theorem writeData_of_cg (h : o.space = .cg) (v : Byte) :
    o.writeData v =
      { o with cgram := o.cgram.write (cgAddr o.ac) v, ac := cgStep o.ac o.id, busy := shortTime } := by
  simp only [Observer.writeData, h]

theorem storeDdram_of_valid (h : validDdram o.n o.ac.toNat = true) (v : Byte) :
    o.storeDdram v = o.ddram.write o.ac.toNat v := if_pos h

/-- R107 (log entry 7): a cell that does not exist takes no byte. -/
theorem storeDdram_of_missing (h : validDdram o.n o.ac.toNat = false) (v : Byte) : o.storeDdram v = o.ddram :=
  if_neg (by simp [h])

end DataWrites

/-- A byte written to a canonical memory is read back at its address, and every other address reads as before. -/
theorem Memory.read_write_frame {m : Memory} (hm : m.wf = true) (x : Nat) (v : Byte) :
    (m.write x v).read x = v ∧ ∀ a, a ≠ x → (m.write x v).read a = m.read a :=
  ⟨by rw [Memory.read_write hm, if_pos rfl], fun a ha => by rw [Memory.read_write hm, if_neg ha]⟩

/-- Settles O42: the RAM that `space` names takes the byte, at the cell `ac` points to. -/
theorem writeDataWord : Obligations.WriteDataWord := by
  rintro s v hr hb ⟨hddram, -, hcgram, -⟩
  have hexec := exec_word_of_idle (i := .writeData v) rfl hr hb
  refine ⟨fun hspace hvalid => ⟨_, ?_, Memory.read_write_frame hddram _ v⟩,
    fun hspace => ⟨_, ?_, Memory.read_write_frame hcgram _ v⟩⟩
  · rw [hexec, Observer.runWord, writeData_of_dd hspace, storeDdram_of_valid hvalid]
    rfl
  · rw [hexec, Observer.runWord, writeData_of_cg hspace]
    rfl

/-- Settles O43: the write is one to DDRAM but for the cell. -/
theorem dataWriteAtMissingAddress : Obligations.DataWriteAtMissingAddress := by
  intro s v hr hb hspace hmissing
  rw [exec_word_of_idle rfl hr hb, Observer.runWord, writeData_of_dd hspace, storeDdram_of_missing hmissing]
  rfl

/-- Settles O44: the undefined word raises its fault, and a read word is refused before the controller. -/
theorem undefinedAndReadWords : Obligations.UndefinedAndReadWords :=
  ⟨fun _ hr hb => exec_word_of_idle rfl hr hb, fun _ _ => ⟨rfl, rfl⟩⟩

/-! ### The address counter (R126) -/

/-- R126: among the addresses that exist, a step is undone by the step the other way. -/
theorem acStep_acStep_not {twoLine : Bool} {a : DdAddr} (h : validDdram twoLine a.toNat = true) (up : Bool) :
    acStep twoLine (acStep twoLine a up) (!up) = a := by
  revert twoLine a up
  decide

/-- Settles O47: the named addresses are evaluated, and every other one steps by one. -/
theorem addressCounterOrder : Obligations.AddressCounterOrder := by
  refine ⟨rfl, rfl, rfl, rfl, rfl, rfl, fun a h h' => ?_, fun a h h' => ?_, fun a h => ?_, fun a h => ?_,
    fun n a up h => ⟨validDdram_acStep h up, acStep_acStep_not h up⟩⟩
  · simp [acStep, h, h']
  · simp [acStep, h, h']
  · simp [acStep, h]
  · simp [acStep, h]

/-! ### A busy or stopped controller -/

/-- R115, R118: every word but a read, and each nibble, is something that reaches the controller. -/
theorem exec_eq_atController {i : Instr} (hi : i.isRequest = false) (hbusy : ∀ x, i ≠ .readBusyAddr x)
    (hdata : ∀ x, i ≠ .readData x) (s : State) : ∃ f, exec i s = .next (atController f s) := by
  cases i with
  | readBusyAddr x => exact absurd rfl (hbusy x)
  | readData x => exact absurd rfl (hdata x)
  | init | clear | home | setcur | putc | display | cursor | blink | entry | shift | backlight | getbl
  | pread => cases hi
  | _ => exact ⟨_, rfl⟩

/-- R115: what reaches a busy controller is HAZARD_BUSY. -/
theorem atController_of_busy {s : State} (hr : s.obs.running = true) (hb : 0 < s.obs.busy)
    (f : Observer → Observer) : atController f s = { s with obs := { s.obs with fault := .hazardBusy } } := by
  simp [atController, Observer.receive, hr, hb]

/-- R118: nothing reaches a stopped observer. -/
theorem atController_of_stopped {s : State} (h : s.obs.running = false) (f : Observer → Observer) :
    atController f s = s := by
  simp [atController, Observer.receive, h]

/-- Settles O46: the two checks come before whatever the word or nibble would do. -/
theorem busyOrStoppedController : Obligations.BusyOrStoppedController := by
  intro s i hi hbusy hdata
  obtain ⟨f, hexec⟩ := exec_eq_atController hi hbusy hdata s
  rw [hexec]
  exact ⟨fun hr hb => congrArg _ (atController_of_busy hr hb f), fun h => congrArg _ (atController_of_stopped h f)⟩

/-! ### Bootstrap nibbles (R63, R113) -/

theorem exec_bootNibbles_of_idle {s : State} (hr : s.obs.running = true) (hb : s.obs.busy = 0) :
    exec .bootNibble3 s = .next { s with obs := s.obs.takeNibble 0x3#4 false } ∧
      exec .bootNibble2 s = .next { s with obs := s.obs.takeNibble 0x2#4 false } :=
  ⟨congrArg _ (atController_of_idle hr hb _), congrArg _ (atController_of_idle hr hb _)⟩

/-- R113: a nibble that completes a word under another RS than its first nibble's: the word's RS is a draw. -/
theorem takeNibble_fourLo_of_ne {o : Observer} {h : Nibble} {r rs : Bool} (ho : o.ifmode = .fourLo h r)
    (hne : r ≠ rs) (n : Nibble) :
    o.takeNibble n rs = { o.drawRest with ifmode := .fourHi }.execute (h ++ n) (rsPick r rs o.drawValue) := by
  simp [Observer.takeNibble, ho, hne]

/-- R113, R123: in 8-bit mode the nibble 0x3 is a function set with DL = 1, and 0x2 one with DL = 0. -/
theorem takeNibble_boot_of_eight {o : Observer} (ho : o.ifmode = .eight) :
    (∃ n f, o.takeNibble 0x3#4 false = o.drawRest.functionSet true n f) ∧
      ∃ n f, o.takeNibble 0x2#4 false = o.drawRest.functionSet false n f := by
  rw [takeNibble_eight ho, takeNibble_eight ho, Observer.execute, Observer.execute, (decodeWord_bootNibble _).1,
    (decodeWord_bootNibble _).2]
  exact ⟨⟨_, _, rfl⟩, ⟨_, _, rfl⟩⟩

/-- Settles O45, by interface mode. -/
theorem bootNibbles : Obligations.BootNibbles := by
  intro s hr hb
  obtain ⟨h3, h2⟩ := exec_bootNibbles_of_idle hr hb
  rw [h3, h2]
  refine ⟨fun hmode => ?eight, fun hmode => ?fourHi, fun h hmode => ?sameRs, fun h hmode => ?otherRs⟩
  case eight =>
    obtain ⟨⟨n, f, hthree⟩, n', f', htwo⟩ := takeNibble_boot_of_eight hmode
    rw [hthree, htwo]
    exact ⟨⟨n, f, rfl⟩, ⟨n', f', rfl⟩⟩
  case fourHi => simp only [takeNibble_fourHi hmode, and_self]
  case sameRs => simp only [takeNibble_fourLo hmode, and_self]
  case otherRs =>
    have hword := takeNibble_fourLo_of_ne (rs := false) hmode nofun
    rw [hword, hword]
    exact ⟨⟨_, rfl⟩, ⟨_, rfl⟩⟩

end Sys2Proof.Machine
end

section
/-! PROOFS. The latch and the edge rule (R108 to R111, R114, R118). -/

namespace Sys2Proof.Machine

section Events

variable {c : Config} {o : Observer} (hrun : o.running = true)

include hrun

theorem take_write (v : Frame) : o.take c (.busWrite c.i2cAddr v true) = o.latchTo c v := by
  simp [Observer.take, hrun]

theorem take_failedWrite (v : Frame) : o.take c (.busWrite c.i2cAddr v false) = o.failedWrite c v := by
  simp [Observer.take, hrun]

theorem take_wait (t : Nat) : o.take c (.wait t) = { o with busy := o.busy - t } := by
  simp [Observer.take, hrun]

/-- R108, R111: where E falls, the latch takes the value and the edge rule runs. -/
theorem take_write_of_edge {v : Frame} (hhigh : line o.latch c.pinmap.e = true)
    (hlow : line v c.pinmap.e = false) :
    o.take c (.busWrite c.i2cAddr v true) = ({ o with latch := v } : Observer).fallingEdge c o.latch v := by
  simp [take_write hrun, Observer.latchTo, hhigh, hlow]

end Events

theorem take_read (c : Config) (a : BitVec 7) (r : Option Byte) (o : Observer) : o.take c (.busRead a r) = o := by
  simp [Observer.take]

/-- R109: a failed write leaves the latch alone, or sets it. -/
theorem failedWrite_cases (c : Config) (v : Frame) (o : Observer) :
    o.failedWrite c v = o.drawRest ∨ o.failedWrite c v = o.drawRest.latchTo c v := by
  unfold Observer.failedWrite
  split
  · exact .inr rfl
  · exact .inl rfl

/-- Settles O48, event by event. -/
theorem observerEventRules : Obligations.ObserverEventRules := by
  refine fun c o => ⟨fun hstopped ev => take_stopped c ev hstopped, fun hrun => ⟨fun v => ?_,
    fun v => take_write_of_no_edge hrun, fun v => ?_, fun a r => take_read c a r o, take_wait hrun⟩⟩
  · rw [take_write hrun, latchTo_latch]
  · rw [take_failedWrite hrun, take_write (o := o.drawRest) hrun]
    exact failedWrite_cases c v o

/-! ### The edge rule, by its checks -/

/-- R111: the held lines agree when every line but E and BL does. -/
theorem heldLines_eq_iff (c : Config) (a b : Frame) :
    heldLines c a = heldLines c b ↔ ∀ i : Fin 8, i ≠ c.pinmap.e → i ≠ c.pinmap.bl → line a i = line b i := by
  have hline (f : Frame) (i : Fin 8) :
      line (heldLines c f) i = (line f i && decide (i ≠ c.pinmap.e) && decide (i ≠ c.pinmap.bl)) := by
    rw [heldLines, line_and_not_mask, line_and_not_mask]
  constructor
  · intro h i he hbl
    simpa [hline, he, hbl] using congrArg (line · i) h
  · intro h
    refine frame_ext fun i => ?_
    rw [hline, hline]
    by_cases he : i = c.pinmap.e
    · simp [he]
    · by_cases hbl : i = c.pinmap.bl
      · simp [hbl]
      · rw [h i he hbl]

/-- R111: the nibble's bits are the lines D7..D4. -/
theorem getLsbD_dataNibble (c : Config) (f : Frame) :
    (dataNibble c f).getLsbD 3 = line f c.pinmap.d7 ∧ (dataNibble c f).getLsbD 2 = line f c.pinmap.d6 ∧
      (dataNibble c f).getLsbD 1 = line f c.pinmap.d5 ∧ (dataNibble c f).getLsbD 0 = line f c.pinmap.d4 := by
  unfold dataNibble
  generalize line f c.pinmap.d7 = d7, line f c.pinmap.d6 = d6, line f c.pinmap.d5 = d5, line f c.pinmap.d4 = d4
  revert d7 d6 d5 d4
  decide

section Edge

variable {c : Config} {a b : Frame} {o : Observer}

theorem fallingEdge_of_busy (hbusy : 0 < o.busy) : o.fallingEdge c a b = { o with fault := .hazardBusy } :=
  if_pos hbusy

variable (hidle : o.busy = 0)

include hidle

theorem fallingEdge_of_not_held (hheld : heldLines c a ≠ heldLines c b) :
    o.fallingEdge c a b = { o with fault := .hazardHold } := by
  simp [Observer.fallingEdge, hidle, hheld]

variable (hheld : heldLines c a = heldLines c b)

include hheld

theorem fallingEdge_of_read (hrw : line a c.pinmap.rw = true) : o.fallingEdge c a b = o.refuseRead := by
  simp [Observer.fallingEdge, hidle, hheld, hrw]

theorem fallingEdge_of_write (hrw : line a c.pinmap.rw = false) :
    o.fallingEdge c a b = o.takeNibble (dataNibble c a) (line a c.pinmap.rs) := by
  simp [Observer.fallingEdge, hidle, hheld, hrw]

end Edge

/-- Settles O49: at a falling edge the checks are met in R111's order. -/
theorem edgeRule : Obligations.EdgeRule := by
  intro c o v hrun t held
  refine ⟨take_write_of_no_edge hrun, fun hhigh hlow => ?_⟩
  have ht : t = ({ o with latch := v } : Observer).fallingEdge c o.latch v := take_write_of_edge hrun hhigh hlow
  have hheld : heldLines c o.latch = heldLines c v ↔ held := heldLines_eq_iff c o.latch v
  rw [ht]
  refine ⟨fun hbusy => fallingEdge_of_busy hbusy,
    fun hidle hnot => fallingEdge_of_not_held hidle (hheld.not.mpr hnot),
    fun hidle hh hrw => fallingEdge_of_read hidle (hheld.mpr hh) hrw, fun hidle hh hrw => ?_⟩
  obtain ⟨h7, h6, h5, h4⟩ := getLsbD_dataNibble c o.latch
  exact ⟨_, h7, h6, h5, h4, fallingEdge_of_write hidle (hheld.mpr hh) hrw⟩

end Sys2Proof.Machine
end

section
/-! PROOFS. What INIT and CLEAR leave in the controller's registers (R93, R128 to R130). -/

namespace Sys2Proof.Machine

/-! ### The bootstrap -/

/-- R87: the bootstrap up to its last nibble: the power-on wait and the three nibbles 0x3. -/
def threesEvents (c : Config) (bl : Bool) : List Event :=
  [.wait c.tPowerOn] ++ bootEvents c bl 0x3#4 c.tBoot1 ++ bootEvents c bl 0x3#4 c.tBoot2
    ++ bootEvents c bl 0x3#4 c.tBoot3

theorem bootstrapEvents_eq (c : Config) (bl : Bool) :
    bootstrapEvents c bl = threesEvents c bl ++ bootEvents c bl 0x2#4 c.tCmd := rfl

/-- R129: the three nibbles 0x3 leave an idle 8-bit interface. -/
theorem takeAll_threesEvents_settlesIn {c : Config} {o : Observer} (hwf : c.wf = true) (hrun : o.running = true)
    (hbusy : o.busy ≤ c.tPowerOn) (bl : Bool) : (o.takeAll c (threesEvents c bl)).SettlesIn {.eight} 0 := by
  obtain ⟨-, hboot1, hboot2, hboot3, -⟩ := times_of_wf hwf
  have hshort {t : Nat} (h : 100 ≤ t) : shortTime ≤ t := le_trans (by decide) h
  have h0 : (o.takeAll c [.wait c.tPowerOn]).SettlesIn Set.univ 0 := by
    rw [takeAll_singleton, take_wait_of_le hrun hbusy]
    exact ⟨hrun, trivial, le_rfl⟩
  have h1 := bootEvents_settlesIn hwf
    (fun o ho => (firstThree_settlesIn o ho).mono le_rfl (le_trans (by decide) hboot1)) bl h0
  have h2 := bootEvents_settlesIn hwf (fun o ho => (secondThree_settlesIn o ho).mono le_rfl (hshort hboot2)) bl h1
  have h3 := bootEvents_settlesIn hwf (fun o ho => (thirdThree_settlesIn o ho).mono le_rfl (hshort hboot3)) bl h2
  simp only [threesEvents, takeAll_append]
  exact h3

theorem take_wait_dl (c : Config) (t : Nat) (o : Observer) : (o.take c (.wait t)).dl = o.dl := by
  unfold Observer.take
  split <;> rfl

/-- R79, R123: the last bootstrap nibble, at an 8-bit interface, makes DL 0. -/
theorem takeAll_bootEvents_two_dl {c : Config} {o : Observer} (hwf : c.wf = true) (ho : o.SettlesIn {.eight} 0)
    (bl : Bool) (t : Nat) : (o.takeAll c (bootEvents c bl 0x2#4 t)).dl = false := by
  obtain ⟨hrun, hmode, hbusy⟩ := ho
  obtain ⟨-, n, f, htwo⟩ :=
    takeNibble_boot_of_eight (o := { o with latch := frame c 0x2#4 false bl false }) hmode
  rw [takeAll_bootEvents hwf hrun (Nat.le_zero.mp hbusy), take_wait_dl, htwo]
  rfl

/-- Settles O51: whatever the interface was, it is 8 bits wide when the last nibble comes. -/
theorem bootstrapResynchronises : Obligations.BootstrapResynchronises := by
  intro c bl o hwf hrun hbusy
  refine ⟨takeAll_bootstrapEvents_aligned hwf hrun hbusy bl, ?_⟩
  rw [bootstrapEvents_eq, takeAll_append]
  exact takeAll_bootEvents_two_dl hwf (takeAll_threesEvents_settlesIn hwf hrun hbusy bl) bl _

/-! ### INIT and CLEAR -/

/-- R87: INIT's events are the bootstrap's and those of the five words behind it. -/
theorem initEvents_eq (c : Config) (bl : Bool) :
    initEvents c bl = bootstrapEvents c bl ++ (setupOps c bl).map (opEvent c) := by
  rw [← initOps_map_opEvent, initOps, List.map_append]
  rfl

/-- R129, R130: under R129's premises INIT's events leave the observer that the five words make. -/
theorem takeAll_initEvents {c : Config} {o : Observer} (hwf : c.wf = true) (hrun : o.running = true)
    (hbusy : o.busy ≤ c.tPowerOn) (bl : Bool) :
    o.takeAll c (initEvents c bl) = (o.takeAll c (bootstrapEvents c bl)).setUp c bl := by
  rw [initEvents_eq, takeAll_append]
  exact (takeAll_setupOps hwf (takeAll_bootstrapEvents_aligned hwf hrun hbusy bl) bl).1

/-- R87, R117: of the five words only the clear display writes DDRAM. -/
theorem setUp_ddram (c : Config) (bl : Bool) (o : Observer) :
    (o.setUp c bl).ddram = o.ddram.blankWhere (validDdram (fsN c)) := rfl

/-- Settles O52: the registers are those the five words leave, and every cell that exists is blanked. -/
theorem initEndsInStep : Obligations.InitEndsInStep := by
  intro s hacc hok hrun hbusy
  obtain ⟨t, hexec, hstep⟩ := exec_init_inStep hacc hok hrun hbusy
  obtain rfl : t = s.settled (completedEngine .init s.eng) (initEvents s.cfg s.eng.bl) .ok none :=
    Host.Outcome.next.inj (hexec.symm.trans (exec_init_ok hacc hok))
  refine ⟨_, hexec, hstep, ?_⟩
  rw [settled_obs, takeAll_initEvents hacc.1 hrun hbusy]
  refine ⟨rfl, rfl, rfl, rfl, rfl, rfl, rfl, fun a ha => ?_⟩
  rw [setUp_ddram, Memory.read_blankWhere, if_pos ha]
  rfl

/-- Settles O56: CLEAR's word sets I/D, and CLEAR commits no mirror. -/
theorem clearLeavesTheEntryMirror : Obligations.ClearLeavesTheEntryMirror := by
  intro s hs hstep hok
  obtain ⟨-, -, -, -, -, hclear, -⟩ := times_of_wf hs.1
  obtain ⟨hexec, -, -, hobs⟩ := exec_send_inStep (i := .clear) (w := .clearDisplay) hs hstep rfl trivial rfl hok rfl
    rfl hclear
  exact ⟨_, hexec, by rw [hobs]; rfl, rfl, rfl, rfl⟩

end Sys2Proof.Machine
end

section
/-! PROOFS. A step with an instruction to run and without one (R64, R71, R147; log entry 10), and the bounds of
SETCUR (R95, R133). -/

namespace Sys2Proof.Machine

/-! ### The next input -/

/-- R147: with no input the engine is idle. -/
theorem step_of_inbox_nil {s : State} (h : s.inbox = []) : step s = .next s := by
  simp only [step, h]

theorem decode_line (cs : List Char) : (Item.line cs).decode = decodeLine cs := rfl

/-- Settles O4: a step is `runDecoded`, which runs an instruction and passes a blank line over. -/
theorem stepRunsTheDecodedInput : Obligations.StepRunsTheDecodedInput := by
  refine ⟨fun s it rest i hin hdec => ?_, fun s hin => step_of_inbox_nil hin, fun s cs rest hin hdec => ?_⟩
  · rw [step_of_inbox hin, hdec, runDecoded]
  · rw [step_of_inbox hin, decode_line, hdec, runDecoded]

/-! ### The bounds of SETCUR -/

/-- R95, R133: the bounds check answers in the transfer's place. -/
theorem setcurBody_of_outOfBounds {line col : Nat} {s : State} (h : s.cfg.lines ≤ line ∨ s.cfg.columns ≤ col) :
    setcurBody line col s = s.settled s.eng [] .outOfBounds none := by
  rw [setcurBody, if_pos h, raiseOutOfBounds, respond_eq_settled]

/-- Settles O26: past the port and the gate SETCUR is its bounds check, which reads no transport. -/
theorem setcurOutOfBounds : Obligations.SetcurOutOfBounds := by
  intro s l c hacc hready hout
  rw [exec_of_isRequest rfl, accept_of_accepts hacc, requestBody, gated_of_ready (by exact hready),
    setcurBody_of_outOfBounds (by exact hout)]
  rfl

end Sys2Proof.Machine
end
